-- ==== Sys2Proof/Word.lean ====
section
/-! DEFINITION. The word types of the machine (R6: DATA_WIDTH 8, ADDR_WIDTH 16).
`a +8 b` and `a +16 b` of rule R8 are `BitVec`'s own wrapping addition at the two widths. -/
namespace Sys2Proof

/-- An 8-bit value: A, X, Y, sp, P, and each memory byte (R6 `DATA_WIDTH`). -/
abbrev Byte := BitVec 8

/-- A 16-bit value: pc and effective addresses (R6 `ADDR_WIDTH`). -/
abbrev Addr := BitVec 16

end Sys2Proof
end

