-- ==== Sys2Proof/Config.lean ====
section
/-! DEFINITION. The implementation parameters of rule R6: those the block fixes, and those the spec
leaves OPEN, which are an argument (`Params`) of construction and reset. -/
namespace Sys2Proof

/-- The parameters rule R6 marks OPEN: "an argument of the model". -/
structure Params where
  /-- `P_RESET`: P at construction and after reset (D6). -/
  pReset : Byte
  /-- `SP_RESET`: sp at construction and after reset (D7). -/
  spReset : Byte
  /-- `STACK_BASE`: the page `sp` offsets into; no rule reads it (R23, D20). -/
  stackBase : Addr
deriving DecidableEq, Repr

namespace Config

/-- The defaults the spec names for its OPEN parameters.
DESIGN CHOICE (log 1, 2, 3): the source gives no value; `State.reset` uses these. Unsafe. -/
def defaultParams : Params :=
  { pReset := 0x24, spReset := 0xFD, stackBase := 0x0100 }

/-- `MEM_SIZE` (R6, R40). -/
def memSize : Nat := 65536

/-- `LOAD_ORIGIN` (R6, R48): where `load` copies the program. -/
def loadOrigin : Addr := 0x8000

/-- `RESET_VECTOR` (R6, R48): the address of its low byte. -/
def resetVector : Addr := 0xFFFC

/-- `PC_INIT` (R6, D8): pc at construction. -/
def pcInit : Addr := 0x0000

/-- `MAX_PROGRAM_LEN` (R6, D17). -/
def maxProgramLen : Nat := 0x8000

end Config

end Sys2Proof
end

