-- ==== Sys2Proof/Syntax.lean ====
section
/-! DEFINITION. The instruction set as syntax: the addressing-mode tags (R10, R50), the operand forms
(R72), the mnemonics, the opcode descriptor (R70), an operand with its bytes assembled (R73), and
`Instr`, with one constructor per row of `spec/opcode_table.json`. -/
namespace Sys2Proof

/-- The ten addressing-mode tags (R10, R50); `noMode` is the tag None. -/
inductive Mode where
  | immediate | zeroPage | zeroPageX | zeroPageY | absolute | absoluteX | absoluteY
  | indirectX | indirectY | noMode
deriving DecidableEq, Repr

/-- The operand forms of rule R72 and rule R81's `form`: the nine mode tags that are forms, and the
four forms that are not modes. -/
inductive Form where
  | immediate | zeroPage | zeroPageX | zeroPageY | absolute | absoluteX | absoluteY
  | indirectX | indirectY | accumulator | implied | relative | indirect
deriving DecidableEq, Repr

/-- The 56 mnemonics of the table, the 33 in-scope ones first (R4, R76). -/
inductive Mnemonic where
  | LDA | LDX | LDY | STA | STX | STY | TAX | TXA | TAY | TYA | INC
  | INX | INY | AND | ORA | EOR | ADC | SBC | ASL | LSR | ROL | ROR
  | BIT | BCC | BCS | BEQ | BNE | BMI | BPL | BVC | BVS | NOP | BRK
  | CMP | CPX | CPY | DEC | DEX | DEY | JMP | JSR | RTS | RTI | PHA
  | PHP | PLA | PLP | CLC | CLD | CLI | CLV | SEC | SED | SEI | TSX
  | TXS
deriving DecidableEq, Repr

/-- The opcode descriptor of rule R70. Its encoded length and its mode tag follow from the form (R72):
`Descriptor.len` and `Descriptor.mode` in Decode.lean. `cycles` is data no rule reads (R260). -/
structure Descriptor where
  opcode : Byte
  mnemonic : Mnemonic
  form : Form
  cycles : Nat
deriving DecidableEq, Repr

/-- An operand with its bytes assembled (R73), one constructor per mode tag: what the Resolver
(R50 to R61) turns into an effective address. -/
inductive Operand where
  | imm (v : Byte)
  | zp (b : Byte)
  | zpX (b : Byte)
  | zpY (b : Byte)
  | abs (w : Addr)
  | absX (w : Addr)
  | absY (w : Addr)
  | indX (b : Byte)
  | indY (b : Byte)
  | noMode
deriving DecidableEq, Repr

/-- The instructions: one constructor per row of `spec/opcode_table.json`, its mnemonic followed by its
operand form. `v` is an immediate, `b` a zero-page byte, `w` a 16-bit address, `off` a branch's signed
offset as a number (R73; -128 to 127, checked by `Instr.WellFormed`). -/
inductive Instr where
  -- LDA (R120)
  | ldaIndX (b : Byte)
  | ldaZp (b : Byte)
  | ldaImm (v : Byte)
  | ldaAbs (w : Addr)
  | ldaIndY (b : Byte)
  | ldaZpX (b : Byte)
  | ldaAbsY (w : Addr)
  | ldaAbsX (w : Addr)
  -- LDX (R121)
  | ldxImm (v : Byte)
  | ldxZp (b : Byte)
  | ldxAbs (w : Addr)
  | ldxZpY (b : Byte)
  | ldxAbsY (w : Addr)
  -- LDY (R122)
  | ldyImm (v : Byte)
  | ldyZp (b : Byte)
  | ldyAbs (w : Addr)
  | ldyZpX (b : Byte)
  | ldyAbsX (w : Addr)
  -- STA (R123)
  | staIndX (b : Byte)
  | staZp (b : Byte)
  | staAbs (w : Addr)
  | staIndY (b : Byte)
  | staZpX (b : Byte)
  | staAbsY (w : Addr)
  | staAbsX (w : Addr)
  -- STX (R124)
  | stxZp (b : Byte)
  | stxAbs (w : Addr)
  | stxZpY (b : Byte)
  -- STY (R125)
  | styZp (b : Byte)
  | styAbs (w : Addr)
  | styZpX (b : Byte)
  -- TAX (R126)
  | tax
  -- TXA (R127)
  | txa
  -- TAY (R128)
  | tay
  -- TYA (R129)
  | tya
  -- INC (R140)
  | incZp (b : Byte)
  | incAbs (w : Addr)
  | incZpX (b : Byte)
  | incAbsX (w : Addr)
  -- INX (R141)
  | inx
  -- INY (R142)
  | iny
  -- AND (R150)
  | andIndX (b : Byte)
  | andZp (b : Byte)
  | andImm (v : Byte)
  | andAbs (w : Addr)
  | andIndY (b : Byte)
  | andZpX (b : Byte)
  | andAbsY (w : Addr)
  | andAbsX (w : Addr)
  -- ORA (R151)
  | oraIndX (b : Byte)
  | oraZp (b : Byte)
  | oraImm (v : Byte)
  | oraAbs (w : Addr)
  | oraIndY (b : Byte)
  | oraZpX (b : Byte)
  | oraAbsY (w : Addr)
  | oraAbsX (w : Addr)
  -- EOR (R152)
  | eorIndX (b : Byte)
  | eorZp (b : Byte)
  | eorImm (v : Byte)
  | eorAbs (w : Addr)
  | eorIndY (b : Byte)
  | eorZpX (b : Byte)
  | eorAbsY (w : Addr)
  | eorAbsX (w : Addr)
  -- ADC (R153)
  | adcIndX (b : Byte)
  | adcZp (b : Byte)
  | adcImm (v : Byte)
  | adcAbs (w : Addr)
  | adcIndY (b : Byte)
  | adcZpX (b : Byte)
  | adcAbsY (w : Addr)
  | adcAbsX (w : Addr)
  -- SBC (R154)
  | sbcIndX (b : Byte)
  | sbcZp (b : Byte)
  | sbcImm (v : Byte)
  | sbcAbs (w : Addr)
  | sbcIndY (b : Byte)
  | sbcZpX (b : Byte)
  | sbcAbsY (w : Addr)
  | sbcAbsX (w : Addr)
  -- ASL (R171,R170)
  | aslZp (b : Byte)
  | aslA
  | aslAbs (w : Addr)
  | aslZpX (b : Byte)
  | aslAbsX (w : Addr)
  -- LSR (R173,R172)
  | lsrZp (b : Byte)
  | lsrA
  | lsrAbs (w : Addr)
  | lsrZpX (b : Byte)
  | lsrAbsX (w : Addr)
  -- ROL (R175,R174)
  | rolZp (b : Byte)
  | rolA
  | rolAbs (w : Addr)
  | rolZpX (b : Byte)
  | rolAbsX (w : Addr)
  -- ROR (R177,R176)
  | rorZp (b : Byte)
  | rorA
  | rorAbs (w : Addr)
  | rorZpX (b : Byte)
  | rorAbsX (w : Addr)
  -- BIT (R190)
  | bitZp (b : Byte)
  | bitAbs (w : Addr)
  -- BCC (R196)
  | bcc (off : Int)
  -- BCS (R197)
  | bcs (off : Int)
  -- BEQ (R198)
  | beq (off : Int)
  -- BNE (R199)
  | bne (off : Int)
  -- BMI (R200)
  | bmi (off : Int)
  -- BPL (R201)
  | bpl (off : Int)
  -- BVC (R202)
  | bvc (off : Int)
  -- BVS (R203)
  | bvs (off : Int)
  -- NOP (R210)
  | nop
  -- BRK (R211)
  | brk
  -- CMP (R76: in the table, not dispatched)
  | cmpIndX (b : Byte)
  | cmpZp (b : Byte)
  | cmpImm (v : Byte)
  | cmpAbs (w : Addr)
  | cmpIndY (b : Byte)
  | cmpZpX (b : Byte)
  | cmpAbsY (w : Addr)
  | cmpAbsX (w : Addr)
  -- CPX (R76: in the table, not dispatched)
  | cpxImm (v : Byte)
  | cpxZp (b : Byte)
  | cpxAbs (w : Addr)
  -- CPY (R76: in the table, not dispatched)
  | cpyImm (v : Byte)
  | cpyZp (b : Byte)
  | cpyAbs (w : Addr)
  -- DEC (R76: in the table, not dispatched)
  | decZp (b : Byte)
  | decAbs (w : Addr)
  | decZpX (b : Byte)
  | decAbsX (w : Addr)
  -- DEX (R76: in the table, not dispatched)
  | dex
  -- DEY (R76: in the table, not dispatched)
  | dey
  -- JMP (R76: in the table, not dispatched)
  | jmpAbs (w : Addr)
  | jmpInd (w : Addr)
  -- JSR (R76: in the table, not dispatched)
  | jsrAbs (w : Addr)
  -- RTS (R76: in the table, not dispatched)
  | rts
  -- RTI (R76: in the table, not dispatched)
  | rti
  -- PHA (R76: in the table, not dispatched)
  | pha
  -- PHP (R76: in the table, not dispatched)
  | php
  -- PLA (R76: in the table, not dispatched)
  | pla
  -- PLP (R76: in the table, not dispatched)
  | plp
  -- CLC (R76: in the table, not dispatched)
  | clc
  -- CLD (R76: in the table, not dispatched)
  | cld
  -- CLI (R76: in the table, not dispatched)
  | cli
  -- CLV (R76: in the table, not dispatched)
  | clv
  -- SEC (R76: in the table, not dispatched)
  | sec
  -- SED (R76: in the table, not dispatched)
  | sed
  -- SEI (R76: in the table, not dispatched)
  | sei
  -- TSX (R76: in the table, not dispatched)
  | tsx
  -- TXS (R76: in the table, not dispatched)
  | txs
deriving DecidableEq, Repr

end Sys2Proof
end

