-- ==== Sys2Proof/WellFormed.lean ====
section
/-! DEFINITION. Which terms of `Instr` an encoding exists for. Every operand byte is legal (R79: "Operand
bytes can take any value. No operand value is reserved."), so the one check is the range of a branch's
offset (R73: "The range is -128 to +127"). -/
namespace Sys2Proof

/-- The range of a signed offset byte (R73, R80). -/
def offsetInRange (off : Int) : Bool := decide (-128 ≤ off ∧ off ≤ 127)

/-- Does an encoding exist for this term: for a branch, is its offset a signed byte? -/
def Instr.WellFormed : Instr → Bool
  | .bcc off => offsetInRange off
  | .bcs off => offsetInRange off
  | .beq off => offsetInRange off
  | .bne off => offsetInRange off
  | .bmi off => offsetInRange off
  | .bpl off => offsetInRange off
  | .bvc off => offsetInRange off
  | .bvs off => offsetInRange off
  | .ldaIndX _ | .ldaZp _ | .ldaImm _ | .ldaAbs _ | .ldaIndY _ | .ldaZpX _ | .ldaAbsY _
  | .ldaAbsX _ | .ldxImm _ | .ldxZp _ | .ldxAbs _ | .ldxZpY _ | .ldxAbsY _ | .ldyImm _ | .ldyZp _
  | .ldyAbs _ | .ldyZpX _ | .ldyAbsX _ | .staIndX _ | .staZp _ | .staAbs _ | .staIndY _
  | .staZpX _ | .staAbsY _ | .staAbsX _ | .stxZp _ | .stxAbs _ | .stxZpY _ | .styZp _ | .styAbs _
  | .styZpX _ | .tax | .txa | .tay | .tya | .incZp _ | .incAbs _ | .incZpX _ | .incAbsX _ | .inx
  | .iny | .andIndX _ | .andZp _ | .andImm _ | .andAbs _ | .andIndY _ | .andZpX _ | .andAbsY _
  | .andAbsX _ | .oraIndX _ | .oraZp _ | .oraImm _ | .oraAbs _ | .oraIndY _ | .oraZpX _
  | .oraAbsY _ | .oraAbsX _ | .eorIndX _ | .eorZp _ | .eorImm _ | .eorAbs _ | .eorIndY _
  | .eorZpX _ | .eorAbsY _ | .eorAbsX _ | .adcIndX _ | .adcZp _ | .adcImm _ | .adcAbs _
  | .adcIndY _ | .adcZpX _ | .adcAbsY _ | .adcAbsX _ | .sbcIndX _ | .sbcZp _ | .sbcImm _
  | .sbcAbs _ | .sbcIndY _ | .sbcZpX _ | .sbcAbsY _ | .sbcAbsX _ | .aslZp _ | .aslA | .aslAbs _
  | .aslZpX _ | .aslAbsX _ | .lsrZp _ | .lsrA | .lsrAbs _ | .lsrZpX _ | .lsrAbsX _ | .rolZp _
  | .rolA | .rolAbs _ | .rolZpX _ | .rolAbsX _ | .rorZp _ | .rorA | .rorAbs _ | .rorZpX _
  | .rorAbsX _ | .bitZp _ | .bitAbs _ | .nop | .brk | .cmpIndX _ | .cmpZp _ | .cmpImm _
  | .cmpAbs _ | .cmpIndY _ | .cmpZpX _ | .cmpAbsY _ | .cmpAbsX _ | .cpxImm _ | .cpxZp _
  | .cpxAbs _ | .cpyImm _ | .cpyZp _ | .cpyAbs _ | .decZp _ | .decAbs _ | .decZpX _ | .decAbsX _
  | .dex | .dey | .jmpAbs _ | .jmpInd _ | .jsrAbs _ | .rts | .rti | .pha | .php | .pla | .plp
  | .clc | .cld | .cli | .clv | .sec | .sed | .sei | .tsx | .txs => true

end Sys2Proof
end

