-- ==== Sys2Proof/Decode.lean ====
section
/-! DEFINITION. Encoding tables, decoder and encoder (30_encoding.md). The byte values are rule R75's and
rule R76's; all but 0x00, 0xEA, 0xA9 and 0x69 are the spec's decision D1 (PRESUMED, log 4). -/
namespace Sys2Proof

/-- Bits 7..0 of a 16-bit value (R44). -/
def loByte (w : Addr) : Byte := w.extractLsb' 0 8

/-- Bits 15..8 of a 16-bit value (R44). -/
def hiByte (w : Addr) : Byte := w.extractLsb' 8 8

/-- `{h, l}` of rule R7: "h·256 + l", h in bits 15..8 and l in bits 7..0. -/
def word16 (h l : Byte) : Addr := BitVec.ofNat 16 (h.toNat * 256 + l.toNat)

/-- The signed value of an offset byte (R73: "read as a two's-complement signed byte"). -/
def offsetOfByte (b : Byte) : Int := b.toInt

/-- The offset byte of a signed offset, the inverse of `offsetOfByte` in its range. -/
def byteOfOffset (off : Int) : Byte := BitVec.ofInt 8 off

/-- The mode tag of each operand form (R72): the accumulator, implied, relative and indirect forms have
the tag None. -/
def Form.mode : Form → Mode
  | .immediate => .immediate
  | .zeroPage => .zeroPage
  | .zeroPageX => .zeroPageX
  | .zeroPageY => .zeroPageY
  | .absolute => .absolute
  | .absoluteX => .absoluteX
  | .absoluteY => .absoluteY
  | .indirectX => .indirectX
  | .indirectY => .indirectY
  | .accumulator => .noMode
  | .implied => .noMode
  | .relative => .noMode
  | .indirect => .noMode

/-- The encoded length of each operand form, opcode included (R72). -/
def Form.length : Form → Nat
  | .accumulator | .implied => 1
  | .immediate | .zeroPage | .zeroPageX | .zeroPageY | .indirectX | .indirectY | .relative => 2
  | .absolute | .absoluteX | .absoluteY | .indirect => 3

/-- `d.mode` of rule R70. -/
def Descriptor.mode (d : Descriptor) : Mode := d.form.mode

/-- `d.len` of rule R70: the instruction's total length in bytes, opcode included. -/
def Descriptor.len (d : Descriptor) : Nat := d.form.length

/-- Is the mnemonic one of the 33 the dispatch covers (R4, R103)? -/
def Mnemonic.dispatched : Mnemonic → Bool
  | .LDA | .LDX | .LDY | .STA | .STX | .STY | .TAX | .TXA | .TAY | .TYA | .INC | .INX | .INY
  | .AND | .ORA | .EOR | .ADC | .SBC | .ASL | .LSR | .ROL | .ROR | .BIT | .BCC | .BCS | .BEQ
  | .BNE | .BMI | .BPL | .BVC | .BVS | .NOP | .BRK => true
  | .CMP | .CPX | .CPY | .DEC | .DEX | .DEY | .JMP | .JSR | .RTS | .RTI | .PHA | .PHP | .PLA
  | .PLP | .CLC | .CLD | .CLI | .CLV | .SEC | .SED | .SEI | .TSX | .TXS => false

/-- The descriptor of each instruction: its row of `spec/opcode_table.json` (R81). -/
def Instr.descriptor : Instr → Descriptor
  | .ldaIndX _ => ⟨0xA1, .LDA, .indirectX, 6⟩
  | .ldaZp _ => ⟨0xA5, .LDA, .zeroPage, 3⟩
  | .ldaImm _ => ⟨0xA9, .LDA, .immediate, 2⟩
  | .ldaAbs _ => ⟨0xAD, .LDA, .absolute, 4⟩
  | .ldaIndY _ => ⟨0xB1, .LDA, .indirectY, 5⟩
  | .ldaZpX _ => ⟨0xB5, .LDA, .zeroPageX, 4⟩
  | .ldaAbsY _ => ⟨0xB9, .LDA, .absoluteY, 4⟩
  | .ldaAbsX _ => ⟨0xBD, .LDA, .absoluteX, 4⟩
  | .ldxImm _ => ⟨0xA2, .LDX, .immediate, 2⟩
  | .ldxZp _ => ⟨0xA6, .LDX, .zeroPage, 3⟩
  | .ldxAbs _ => ⟨0xAE, .LDX, .absolute, 4⟩
  | .ldxZpY _ => ⟨0xB6, .LDX, .zeroPageY, 4⟩
  | .ldxAbsY _ => ⟨0xBE, .LDX, .absoluteY, 4⟩
  | .ldyImm _ => ⟨0xA0, .LDY, .immediate, 2⟩
  | .ldyZp _ => ⟨0xA4, .LDY, .zeroPage, 3⟩
  | .ldyAbs _ => ⟨0xAC, .LDY, .absolute, 4⟩
  | .ldyZpX _ => ⟨0xB4, .LDY, .zeroPageX, 4⟩
  | .ldyAbsX _ => ⟨0xBC, .LDY, .absoluteX, 4⟩
  | .staIndX _ => ⟨0x81, .STA, .indirectX, 6⟩
  | .staZp _ => ⟨0x85, .STA, .zeroPage, 3⟩
  | .staAbs _ => ⟨0x8D, .STA, .absolute, 4⟩
  | .staIndY _ => ⟨0x91, .STA, .indirectY, 6⟩
  | .staZpX _ => ⟨0x95, .STA, .zeroPageX, 4⟩
  | .staAbsY _ => ⟨0x99, .STA, .absoluteY, 5⟩
  | .staAbsX _ => ⟨0x9D, .STA, .absoluteX, 5⟩
  | .stxZp _ => ⟨0x86, .STX, .zeroPage, 3⟩
  | .stxAbs _ => ⟨0x8E, .STX, .absolute, 4⟩
  | .stxZpY _ => ⟨0x96, .STX, .zeroPageY, 4⟩
  | .styZp _ => ⟨0x84, .STY, .zeroPage, 3⟩
  | .styAbs _ => ⟨0x8C, .STY, .absolute, 4⟩
  | .styZpX _ => ⟨0x94, .STY, .zeroPageX, 4⟩
  | .tax => ⟨0xAA, .TAX, .implied, 2⟩
  | .txa => ⟨0x8A, .TXA, .implied, 2⟩
  | .tay => ⟨0xA8, .TAY, .implied, 2⟩
  | .tya => ⟨0x98, .TYA, .implied, 2⟩
  | .incZp _ => ⟨0xE6, .INC, .zeroPage, 5⟩
  | .incAbs _ => ⟨0xEE, .INC, .absolute, 6⟩
  | .incZpX _ => ⟨0xF6, .INC, .zeroPageX, 6⟩
  | .incAbsX _ => ⟨0xFE, .INC, .absoluteX, 7⟩
  | .inx => ⟨0xE8, .INX, .implied, 2⟩
  | .iny => ⟨0xC8, .INY, .implied, 2⟩
  | .andIndX _ => ⟨0x21, .AND, .indirectX, 6⟩
  | .andZp _ => ⟨0x25, .AND, .zeroPage, 3⟩
  | .andImm _ => ⟨0x29, .AND, .immediate, 2⟩
  | .andAbs _ => ⟨0x2D, .AND, .absolute, 4⟩
  | .andIndY _ => ⟨0x31, .AND, .indirectY, 5⟩
  | .andZpX _ => ⟨0x35, .AND, .zeroPageX, 4⟩
  | .andAbsY _ => ⟨0x39, .AND, .absoluteY, 4⟩
  | .andAbsX _ => ⟨0x3D, .AND, .absoluteX, 4⟩
  | .oraIndX _ => ⟨0x01, .ORA, .indirectX, 6⟩
  | .oraZp _ => ⟨0x05, .ORA, .zeroPage, 3⟩
  | .oraImm _ => ⟨0x09, .ORA, .immediate, 2⟩
  | .oraAbs _ => ⟨0x0D, .ORA, .absolute, 4⟩
  | .oraIndY _ => ⟨0x11, .ORA, .indirectY, 5⟩
  | .oraZpX _ => ⟨0x15, .ORA, .zeroPageX, 4⟩
  | .oraAbsY _ => ⟨0x19, .ORA, .absoluteY, 4⟩
  | .oraAbsX _ => ⟨0x1D, .ORA, .absoluteX, 4⟩
  | .eorIndX _ => ⟨0x41, .EOR, .indirectX, 6⟩
  | .eorZp _ => ⟨0x45, .EOR, .zeroPage, 3⟩
  | .eorImm _ => ⟨0x49, .EOR, .immediate, 2⟩
  | .eorAbs _ => ⟨0x4D, .EOR, .absolute, 4⟩
  | .eorIndY _ => ⟨0x51, .EOR, .indirectY, 5⟩
  | .eorZpX _ => ⟨0x55, .EOR, .zeroPageX, 4⟩
  | .eorAbsY _ => ⟨0x59, .EOR, .absoluteY, 4⟩
  | .eorAbsX _ => ⟨0x5D, .EOR, .absoluteX, 4⟩
  | .adcIndX _ => ⟨0x61, .ADC, .indirectX, 6⟩
  | .adcZp _ => ⟨0x65, .ADC, .zeroPage, 3⟩
  | .adcImm _ => ⟨0x69, .ADC, .immediate, 2⟩
  | .adcAbs _ => ⟨0x6D, .ADC, .absolute, 4⟩
  | .adcIndY _ => ⟨0x71, .ADC, .indirectY, 5⟩
  | .adcZpX _ => ⟨0x75, .ADC, .zeroPageX, 4⟩
  | .adcAbsY _ => ⟨0x79, .ADC, .absoluteY, 4⟩
  | .adcAbsX _ => ⟨0x7D, .ADC, .absoluteX, 4⟩
  | .sbcIndX _ => ⟨0xE1, .SBC, .indirectX, 6⟩
  | .sbcZp _ => ⟨0xE5, .SBC, .zeroPage, 3⟩
  | .sbcImm _ => ⟨0xE9, .SBC, .immediate, 2⟩
  | .sbcAbs _ => ⟨0xED, .SBC, .absolute, 4⟩
  | .sbcIndY _ => ⟨0xF1, .SBC, .indirectY, 5⟩
  | .sbcZpX _ => ⟨0xF5, .SBC, .zeroPageX, 4⟩
  | .sbcAbsY _ => ⟨0xF9, .SBC, .absoluteY, 4⟩
  | .sbcAbsX _ => ⟨0xFD, .SBC, .absoluteX, 4⟩
  | .aslZp _ => ⟨0x06, .ASL, .zeroPage, 5⟩
  | .aslA => ⟨0x0A, .ASL, .accumulator, 2⟩
  | .aslAbs _ => ⟨0x0E, .ASL, .absolute, 6⟩
  | .aslZpX _ => ⟨0x16, .ASL, .zeroPageX, 6⟩
  | .aslAbsX _ => ⟨0x1E, .ASL, .absoluteX, 7⟩
  | .lsrZp _ => ⟨0x46, .LSR, .zeroPage, 5⟩
  | .lsrA => ⟨0x4A, .LSR, .accumulator, 2⟩
  | .lsrAbs _ => ⟨0x4E, .LSR, .absolute, 6⟩
  | .lsrZpX _ => ⟨0x56, .LSR, .zeroPageX, 6⟩
  | .lsrAbsX _ => ⟨0x5E, .LSR, .absoluteX, 7⟩
  | .rolZp _ => ⟨0x26, .ROL, .zeroPage, 5⟩
  | .rolA => ⟨0x2A, .ROL, .accumulator, 2⟩
  | .rolAbs _ => ⟨0x2E, .ROL, .absolute, 6⟩
  | .rolZpX _ => ⟨0x36, .ROL, .zeroPageX, 6⟩
  | .rolAbsX _ => ⟨0x3E, .ROL, .absoluteX, 7⟩
  | .rorZp _ => ⟨0x66, .ROR, .zeroPage, 5⟩
  | .rorA => ⟨0x6A, .ROR, .accumulator, 2⟩
  | .rorAbs _ => ⟨0x6E, .ROR, .absolute, 6⟩
  | .rorZpX _ => ⟨0x76, .ROR, .zeroPageX, 6⟩
  | .rorAbsX _ => ⟨0x7E, .ROR, .absoluteX, 7⟩
  | .bitZp _ => ⟨0x24, .BIT, .zeroPage, 3⟩
  | .bitAbs _ => ⟨0x2C, .BIT, .absolute, 4⟩
  | .bcc _ => ⟨0x90, .BCC, .relative, 2⟩
  | .bcs _ => ⟨0xB0, .BCS, .relative, 2⟩
  | .beq _ => ⟨0xF0, .BEQ, .relative, 2⟩
  | .bne _ => ⟨0xD0, .BNE, .relative, 2⟩
  | .bmi _ => ⟨0x30, .BMI, .relative, 2⟩
  | .bpl _ => ⟨0x10, .BPL, .relative, 2⟩
  | .bvc _ => ⟨0x50, .BVC, .relative, 2⟩
  | .bvs _ => ⟨0x70, .BVS, .relative, 2⟩
  | .nop => ⟨0xEA, .NOP, .implied, 2⟩
  | .brk => ⟨0x00, .BRK, .implied, 7⟩
  | .cmpIndX _ => ⟨0xC1, .CMP, .indirectX, 6⟩
  | .cmpZp _ => ⟨0xC5, .CMP, .zeroPage, 3⟩
  | .cmpImm _ => ⟨0xC9, .CMP, .immediate, 2⟩
  | .cmpAbs _ => ⟨0xCD, .CMP, .absolute, 4⟩
  | .cmpIndY _ => ⟨0xD1, .CMP, .indirectY, 5⟩
  | .cmpZpX _ => ⟨0xD5, .CMP, .zeroPageX, 4⟩
  | .cmpAbsY _ => ⟨0xD9, .CMP, .absoluteY, 4⟩
  | .cmpAbsX _ => ⟨0xDD, .CMP, .absoluteX, 4⟩
  | .cpxImm _ => ⟨0xE0, .CPX, .immediate, 2⟩
  | .cpxZp _ => ⟨0xE4, .CPX, .zeroPage, 3⟩
  | .cpxAbs _ => ⟨0xEC, .CPX, .absolute, 4⟩
  | .cpyImm _ => ⟨0xC0, .CPY, .immediate, 2⟩
  | .cpyZp _ => ⟨0xC4, .CPY, .zeroPage, 3⟩
  | .cpyAbs _ => ⟨0xCC, .CPY, .absolute, 4⟩
  | .decZp _ => ⟨0xC6, .DEC, .zeroPage, 5⟩
  | .decAbs _ => ⟨0xCE, .DEC, .absolute, 6⟩
  | .decZpX _ => ⟨0xD6, .DEC, .zeroPageX, 6⟩
  | .decAbsX _ => ⟨0xDE, .DEC, .absoluteX, 7⟩
  | .dex => ⟨0xCA, .DEX, .implied, 2⟩
  | .dey => ⟨0x88, .DEY, .implied, 2⟩
  | .jmpAbs _ => ⟨0x4C, .JMP, .absolute, 3⟩
  | .jmpInd _ => ⟨0x6C, .JMP, .indirect, 5⟩
  | .jsrAbs _ => ⟨0x20, .JSR, .absolute, 6⟩
  | .rts => ⟨0x60, .RTS, .implied, 6⟩
  | .rti => ⟨0x40, .RTI, .implied, 6⟩
  | .pha => ⟨0x48, .PHA, .implied, 3⟩
  | .php => ⟨0x08, .PHP, .implied, 3⟩
  | .pla => ⟨0x68, .PLA, .implied, 4⟩
  | .plp => ⟨0x28, .PLP, .implied, 4⟩
  | .clc => ⟨0x18, .CLC, .implied, 2⟩
  | .cld => ⟨0xD8, .CLD, .implied, 2⟩
  | .cli => ⟨0x58, .CLI, .implied, 2⟩
  | .clv => ⟨0xB8, .CLV, .implied, 2⟩
  | .sec => ⟨0x38, .SEC, .implied, 2⟩
  | .sed => ⟨0xF8, .SED, .implied, 2⟩
  | .sei => ⟨0x78, .SEI, .implied, 2⟩
  | .tsx => ⟨0xBA, .TSX, .implied, 2⟩
  | .txs => ⟨0x9A, .TXS, .implied, 2⟩

/-- The instruction's mnemonic. -/
def Instr.mnemonic (i : Instr) : Mnemonic := i.descriptor.mnemonic

/-- The instruction's length in bytes (R70 `d.len`). -/
def Instr.len (i : Instr) : Nat := i.descriptor.len

/-- The operand of each instruction, its bytes assembled as rule R73 says; `noMode` for the forms whose
mode tag is None. -/
def Instr.operand : Instr → Operand
  | .ldaIndX b => .indX b
  | .ldaZp b => .zp b
  | .ldaImm v => .imm v
  | .ldaAbs w => .abs w
  | .ldaIndY b => .indY b
  | .ldaZpX b => .zpX b
  | .ldaAbsY w => .absY w
  | .ldaAbsX w => .absX w
  | .ldxImm v => .imm v
  | .ldxZp b => .zp b
  | .ldxAbs w => .abs w
  | .ldxZpY b => .zpY b
  | .ldxAbsY w => .absY w
  | .ldyImm v => .imm v
  | .ldyZp b => .zp b
  | .ldyAbs w => .abs w
  | .ldyZpX b => .zpX b
  | .ldyAbsX w => .absX w
  | .staIndX b => .indX b
  | .staZp b => .zp b
  | .staAbs w => .abs w
  | .staIndY b => .indY b
  | .staZpX b => .zpX b
  | .staAbsY w => .absY w
  | .staAbsX w => .absX w
  | .stxZp b => .zp b
  | .stxAbs w => .abs w
  | .stxZpY b => .zpY b
  | .styZp b => .zp b
  | .styAbs w => .abs w
  | .styZpX b => .zpX b
  | .incZp b => .zp b
  | .incAbs w => .abs w
  | .incZpX b => .zpX b
  | .incAbsX w => .absX w
  | .andIndX b => .indX b
  | .andZp b => .zp b
  | .andImm v => .imm v
  | .andAbs w => .abs w
  | .andIndY b => .indY b
  | .andZpX b => .zpX b
  | .andAbsY w => .absY w
  | .andAbsX w => .absX w
  | .oraIndX b => .indX b
  | .oraZp b => .zp b
  | .oraImm v => .imm v
  | .oraAbs w => .abs w
  | .oraIndY b => .indY b
  | .oraZpX b => .zpX b
  | .oraAbsY w => .absY w
  | .oraAbsX w => .absX w
  | .eorIndX b => .indX b
  | .eorZp b => .zp b
  | .eorImm v => .imm v
  | .eorAbs w => .abs w
  | .eorIndY b => .indY b
  | .eorZpX b => .zpX b
  | .eorAbsY w => .absY w
  | .eorAbsX w => .absX w
  | .adcIndX b => .indX b
  | .adcZp b => .zp b
  | .adcImm v => .imm v
  | .adcAbs w => .abs w
  | .adcIndY b => .indY b
  | .adcZpX b => .zpX b
  | .adcAbsY w => .absY w
  | .adcAbsX w => .absX w
  | .sbcIndX b => .indX b
  | .sbcZp b => .zp b
  | .sbcImm v => .imm v
  | .sbcAbs w => .abs w
  | .sbcIndY b => .indY b
  | .sbcZpX b => .zpX b
  | .sbcAbsY w => .absY w
  | .sbcAbsX w => .absX w
  | .aslZp b => .zp b
  | .aslAbs w => .abs w
  | .aslZpX b => .zpX b
  | .aslAbsX w => .absX w
  | .lsrZp b => .zp b
  | .lsrAbs w => .abs w
  | .lsrZpX b => .zpX b
  | .lsrAbsX w => .absX w
  | .rolZp b => .zp b
  | .rolAbs w => .abs w
  | .rolZpX b => .zpX b
  | .rolAbsX w => .absX w
  | .rorZp b => .zp b
  | .rorAbs w => .abs w
  | .rorZpX b => .zpX b
  | .rorAbsX w => .absX w
  | .bitZp b => .zp b
  | .bitAbs w => .abs w
  | .cmpIndX b => .indX b
  | .cmpZp b => .zp b
  | .cmpImm v => .imm v
  | .cmpAbs w => .abs w
  | .cmpIndY b => .indY b
  | .cmpZpX b => .zpX b
  | .cmpAbsY w => .absY w
  | .cmpAbsX w => .absX w
  | .cpxImm v => .imm v
  | .cpxZp b => .zp b
  | .cpxAbs w => .abs w
  | .cpyImm v => .imm v
  | .cpyZp b => .zp b
  | .cpyAbs w => .abs w
  | .decZp b => .zp b
  | .decAbs w => .abs w
  | .decZpX b => .zpX b
  | .decAbsX w => .absX w
  | .jmpAbs w => .abs w
  | .jsrAbs w => .abs w
  | .tax | .txa | .tay | .tya | .inx | .iny | .aslA | .lsrA | .rolA | .rorA | .bcc _ | .bcs _
  | .beq _ | .bne _ | .bmi _ | .bpl _ | .bvc _ | .bvs _ | .nop | .brk | .dex | .dey | .jmpInd _
  | .rts | .rti | .pha | .php | .pla | .plp | .clc | .cld | .cli | .clv | .sec | .sed | .sei
  | .tsx | .txs => .noMode

/-- The signed offset of a branch, and none of any other instruction. -/
def Instr.branchOffset : Instr → Option Int
  | .bcc off => some off
  | .bcs off => some off
  | .beq off => some off
  | .bne off => some off
  | .bmi off => some off
  | .bpl off => some off
  | .bvc off => some off
  | .bvs off => some off
  | .ldaIndX _ | .ldaZp _ | .ldaImm _ | .ldaAbs _ | .ldaIndY _ | .ldaZpX _ | .ldaAbsY _
  | .ldaAbsX _ | .ldxImm _ | .ldxZp _ | .ldxAbs _ | .ldxZpY _ | .ldxAbsY _ | .ldyImm _ | .ldyZp _
  | .ldyAbs _ | .ldyZpX _ | .ldyAbsX _ | .staIndX _ | .staZp _ | .staAbs _ | .staIndY _
  | .staZpX _ | .staAbsY _ | .staAbsX _ | .stxZp _ | .stxAbs _ | .stxZpY _ | .styZp _ | .styAbs _
  | .styZpX _ | .tax | .txa | .tay | .tya | .incZp _ | .incAbs _ | .incZpX _ | .incAbsX _ | .inx
  | .iny | .andIndX _ | .andZp _ | .andImm _ | .andAbs _ | .andIndY _ | .andZpX _ | .andAbsY _
  | .andAbsX _ | .oraIndX _ | .oraZp _ | .oraImm _ | .oraAbs _ | .oraIndY _ | .oraZpX _
  | .oraAbsY _ | .oraAbsX _ | .eorIndX _ | .eorZp _ | .eorImm _ | .eorAbs _ | .eorIndY _
  | .eorZpX _ | .eorAbsY _ | .eorAbsX _ | .adcIndX _ | .adcZp _ | .adcImm _ | .adcAbs _
  | .adcIndY _ | .adcZpX _ | .adcAbsY _ | .adcAbsX _ | .sbcIndX _ | .sbcZp _ | .sbcImm _
  | .sbcAbs _ | .sbcIndY _ | .sbcZpX _ | .sbcAbsY _ | .sbcAbsX _ | .aslZp _ | .aslA | .aslAbs _
  | .aslZpX _ | .aslAbsX _ | .lsrZp _ | .lsrA | .lsrAbs _ | .lsrZpX _ | .lsrAbsX _ | .rolZp _
  | .rolA | .rolAbs _ | .rolZpX _ | .rolAbsX _ | .rorZp _ | .rorA | .rorAbs _ | .rorZpX _
  | .rorAbsX _ | .bitZp _ | .bitAbs _ | .nop | .brk | .cmpIndX _ | .cmpZp _ | .cmpImm _
  | .cmpAbs _ | .cmpIndY _ | .cmpZpX _ | .cmpAbsY _ | .cmpAbsX _ | .cpxImm _ | .cpxZp _
  | .cpxAbs _ | .cpyImm _ | .cpyZp _ | .cpyAbs _ | .decZp _ | .decAbs _ | .decZpX _ | .decAbsX _
  | .dex | .dey | .jmpAbs _ | .jmpInd _ | .jsrAbs _ | .rts | .rti | .pha | .php | .pla | .plp
  | .clc | .cld | .cli | .clv | .sec | .sed | .sei | .tsx | .txs => none

/-- The instruction whose opcode byte is `op` and whose next two bytes are `b1` and `b2` (those past its
length are not used), or none for the 105 bytes of rule R77, which are absent from the table. -/
def decodeBytes (op b1 b2 : Byte) : Option Instr :=
  match op with
  | 0x00#8 => some .brk
  | 0x01#8 => some (.oraIndX b1)
  | 0x05#8 => some (.oraZp b1)
  | 0x06#8 => some (.aslZp b1)
  | 0x08#8 => some .php
  | 0x09#8 => some (.oraImm b1)
  | 0x0A#8 => some .aslA
  | 0x0D#8 => some (.oraAbs (word16 b2 b1))
  | 0x0E#8 => some (.aslAbs (word16 b2 b1))
  | 0x10#8 => some (.bpl (offsetOfByte b1))
  | 0x11#8 => some (.oraIndY b1)
  | 0x15#8 => some (.oraZpX b1)
  | 0x16#8 => some (.aslZpX b1)
  | 0x18#8 => some .clc
  | 0x19#8 => some (.oraAbsY (word16 b2 b1))
  | 0x1D#8 => some (.oraAbsX (word16 b2 b1))
  | 0x1E#8 => some (.aslAbsX (word16 b2 b1))
  | 0x20#8 => some (.jsrAbs (word16 b2 b1))
  | 0x21#8 => some (.andIndX b1)
  | 0x24#8 => some (.bitZp b1)
  | 0x25#8 => some (.andZp b1)
  | 0x26#8 => some (.rolZp b1)
  | 0x28#8 => some .plp
  | 0x29#8 => some (.andImm b1)
  | 0x2A#8 => some .rolA
  | 0x2C#8 => some (.bitAbs (word16 b2 b1))
  | 0x2D#8 => some (.andAbs (word16 b2 b1))
  | 0x2E#8 => some (.rolAbs (word16 b2 b1))
  | 0x30#8 => some (.bmi (offsetOfByte b1))
  | 0x31#8 => some (.andIndY b1)
  | 0x35#8 => some (.andZpX b1)
  | 0x36#8 => some (.rolZpX b1)
  | 0x38#8 => some .sec
  | 0x39#8 => some (.andAbsY (word16 b2 b1))
  | 0x3D#8 => some (.andAbsX (word16 b2 b1))
  | 0x3E#8 => some (.rolAbsX (word16 b2 b1))
  | 0x40#8 => some .rti
  | 0x41#8 => some (.eorIndX b1)
  | 0x45#8 => some (.eorZp b1)
  | 0x46#8 => some (.lsrZp b1)
  | 0x48#8 => some .pha
  | 0x49#8 => some (.eorImm b1)
  | 0x4A#8 => some .lsrA
  | 0x4C#8 => some (.jmpAbs (word16 b2 b1))
  | 0x4D#8 => some (.eorAbs (word16 b2 b1))
  | 0x4E#8 => some (.lsrAbs (word16 b2 b1))
  | 0x50#8 => some (.bvc (offsetOfByte b1))
  | 0x51#8 => some (.eorIndY b1)
  | 0x55#8 => some (.eorZpX b1)
  | 0x56#8 => some (.lsrZpX b1)
  | 0x58#8 => some .cli
  | 0x59#8 => some (.eorAbsY (word16 b2 b1))
  | 0x5D#8 => some (.eorAbsX (word16 b2 b1))
  | 0x5E#8 => some (.lsrAbsX (word16 b2 b1))
  | 0x60#8 => some .rts
  | 0x61#8 => some (.adcIndX b1)
  | 0x65#8 => some (.adcZp b1)
  | 0x66#8 => some (.rorZp b1)
  | 0x68#8 => some .pla
  | 0x69#8 => some (.adcImm b1)
  | 0x6A#8 => some .rorA
  | 0x6C#8 => some (.jmpInd (word16 b2 b1))
  | 0x6D#8 => some (.adcAbs (word16 b2 b1))
  | 0x6E#8 => some (.rorAbs (word16 b2 b1))
  | 0x70#8 => some (.bvs (offsetOfByte b1))
  | 0x71#8 => some (.adcIndY b1)
  | 0x75#8 => some (.adcZpX b1)
  | 0x76#8 => some (.rorZpX b1)
  | 0x78#8 => some .sei
  | 0x79#8 => some (.adcAbsY (word16 b2 b1))
  | 0x7D#8 => some (.adcAbsX (word16 b2 b1))
  | 0x7E#8 => some (.rorAbsX (word16 b2 b1))
  | 0x81#8 => some (.staIndX b1)
  | 0x84#8 => some (.styZp b1)
  | 0x85#8 => some (.staZp b1)
  | 0x86#8 => some (.stxZp b1)
  | 0x88#8 => some .dey
  | 0x8A#8 => some .txa
  | 0x8C#8 => some (.styAbs (word16 b2 b1))
  | 0x8D#8 => some (.staAbs (word16 b2 b1))
  | 0x8E#8 => some (.stxAbs (word16 b2 b1))
  | 0x90#8 => some (.bcc (offsetOfByte b1))
  | 0x91#8 => some (.staIndY b1)
  | 0x94#8 => some (.styZpX b1)
  | 0x95#8 => some (.staZpX b1)
  | 0x96#8 => some (.stxZpY b1)
  | 0x98#8 => some .tya
  | 0x99#8 => some (.staAbsY (word16 b2 b1))
  | 0x9A#8 => some .txs
  | 0x9D#8 => some (.staAbsX (word16 b2 b1))
  | 0xA0#8 => some (.ldyImm b1)
  | 0xA1#8 => some (.ldaIndX b1)
  | 0xA2#8 => some (.ldxImm b1)
  | 0xA4#8 => some (.ldyZp b1)
  | 0xA5#8 => some (.ldaZp b1)
  | 0xA6#8 => some (.ldxZp b1)
  | 0xA8#8 => some .tay
  | 0xA9#8 => some (.ldaImm b1)
  | 0xAA#8 => some .tax
  | 0xAC#8 => some (.ldyAbs (word16 b2 b1))
  | 0xAD#8 => some (.ldaAbs (word16 b2 b1))
  | 0xAE#8 => some (.ldxAbs (word16 b2 b1))
  | 0xB0#8 => some (.bcs (offsetOfByte b1))
  | 0xB1#8 => some (.ldaIndY b1)
  | 0xB4#8 => some (.ldyZpX b1)
  | 0xB5#8 => some (.ldaZpX b1)
  | 0xB6#8 => some (.ldxZpY b1)
  | 0xB8#8 => some .clv
  | 0xB9#8 => some (.ldaAbsY (word16 b2 b1))
  | 0xBA#8 => some .tsx
  | 0xBC#8 => some (.ldyAbsX (word16 b2 b1))
  | 0xBD#8 => some (.ldaAbsX (word16 b2 b1))
  | 0xBE#8 => some (.ldxAbsY (word16 b2 b1))
  | 0xC0#8 => some (.cpyImm b1)
  | 0xC1#8 => some (.cmpIndX b1)
  | 0xC4#8 => some (.cpyZp b1)
  | 0xC5#8 => some (.cmpZp b1)
  | 0xC6#8 => some (.decZp b1)
  | 0xC8#8 => some .iny
  | 0xC9#8 => some (.cmpImm b1)
  | 0xCA#8 => some .dex
  | 0xCC#8 => some (.cpyAbs (word16 b2 b1))
  | 0xCD#8 => some (.cmpAbs (word16 b2 b1))
  | 0xCE#8 => some (.decAbs (word16 b2 b1))
  | 0xD0#8 => some (.bne (offsetOfByte b1))
  | 0xD1#8 => some (.cmpIndY b1)
  | 0xD5#8 => some (.cmpZpX b1)
  | 0xD6#8 => some (.decZpX b1)
  | 0xD8#8 => some .cld
  | 0xD9#8 => some (.cmpAbsY (word16 b2 b1))
  | 0xDD#8 => some (.cmpAbsX (word16 b2 b1))
  | 0xDE#8 => some (.decAbsX (word16 b2 b1))
  | 0xE0#8 => some (.cpxImm b1)
  | 0xE1#8 => some (.sbcIndX b1)
  | 0xE4#8 => some (.cpxZp b1)
  | 0xE5#8 => some (.sbcZp b1)
  | 0xE6#8 => some (.incZp b1)
  | 0xE8#8 => some .inx
  | 0xE9#8 => some (.sbcImm b1)
  | 0xEA#8 => some .nop
  | 0xEC#8 => some (.cpxAbs (word16 b2 b1))
  | 0xED#8 => some (.sbcAbs (word16 b2 b1))
  | 0xEE#8 => some (.incAbs (word16 b2 b1))
  | 0xF0#8 => some (.beq (offsetOfByte b1))
  | 0xF1#8 => some (.sbcIndY b1)
  | 0xF5#8 => some (.sbcZpX b1)
  | 0xF6#8 => some (.incZpX b1)
  | 0xF8#8 => some .sed
  | 0xF9#8 => some (.sbcAbsY (word16 b2 b1))
  | 0xFD#8 => some (.sbcAbsX (word16 b2 b1))
  | 0xFE#8 => some (.incAbsX (word16 b2 b1))
  | _ => none

/-- Why a byte sequence is no instruction. -/
inductive DecodeError where
  /-- There is no opcode byte. -/
  | noOpcode
  /-- The opcode byte is absent from the table (R77, error (a) of R220). -/
  | unrecognizedOpcode (op : Byte)
  /-- Fewer operand bytes follow than the instruction's length asks for. -/
  | truncated (op : Byte)
deriving DecidableEq, Repr

/-- Read one instruction from the front of a byte sequence: the instruction and the bytes after it (R71,
R74). Total: any other sequence is rejected by name. -/
def decode : List Byte → Except DecodeError (Instr × List Byte)
  | [] => .error .noOpcode
  | op :: rest =>
    match decodeBytes op (rest.getD 0 0) (rest.getD 1 0) with
    | none => .error (.unrecognizedOpcode op)
    | some i => if i.len ≤ rest.length + 1 then .ok (i, rest.drop (i.len - 1)) else .error (.truncated op)

/-- The bytes of an instruction in address order (R71, R81's `encoding`): the opcode, then the operand
byte, or the address low byte and high byte. -/
def encode : Instr → List Byte
  | .ldaIndX b => [0xA1, b]
  | .ldaZp b => [0xA5, b]
  | .ldaImm v => [0xA9, v]
  | .ldaAbs w => [0xAD, loByte w, hiByte w]
  | .ldaIndY b => [0xB1, b]
  | .ldaZpX b => [0xB5, b]
  | .ldaAbsY w => [0xB9, loByte w, hiByte w]
  | .ldaAbsX w => [0xBD, loByte w, hiByte w]
  | .ldxImm v => [0xA2, v]
  | .ldxZp b => [0xA6, b]
  | .ldxAbs w => [0xAE, loByte w, hiByte w]
  | .ldxZpY b => [0xB6, b]
  | .ldxAbsY w => [0xBE, loByte w, hiByte w]
  | .ldyImm v => [0xA0, v]
  | .ldyZp b => [0xA4, b]
  | .ldyAbs w => [0xAC, loByte w, hiByte w]
  | .ldyZpX b => [0xB4, b]
  | .ldyAbsX w => [0xBC, loByte w, hiByte w]
  | .staIndX b => [0x81, b]
  | .staZp b => [0x85, b]
  | .staAbs w => [0x8D, loByte w, hiByte w]
  | .staIndY b => [0x91, b]
  | .staZpX b => [0x95, b]
  | .staAbsY w => [0x99, loByte w, hiByte w]
  | .staAbsX w => [0x9D, loByte w, hiByte w]
  | .stxZp b => [0x86, b]
  | .stxAbs w => [0x8E, loByte w, hiByte w]
  | .stxZpY b => [0x96, b]
  | .styZp b => [0x84, b]
  | .styAbs w => [0x8C, loByte w, hiByte w]
  | .styZpX b => [0x94, b]
  | .tax => [0xAA]
  | .txa => [0x8A]
  | .tay => [0xA8]
  | .tya => [0x98]
  | .incZp b => [0xE6, b]
  | .incAbs w => [0xEE, loByte w, hiByte w]
  | .incZpX b => [0xF6, b]
  | .incAbsX w => [0xFE, loByte w, hiByte w]
  | .inx => [0xE8]
  | .iny => [0xC8]
  | .andIndX b => [0x21, b]
  | .andZp b => [0x25, b]
  | .andImm v => [0x29, v]
  | .andAbs w => [0x2D, loByte w, hiByte w]
  | .andIndY b => [0x31, b]
  | .andZpX b => [0x35, b]
  | .andAbsY w => [0x39, loByte w, hiByte w]
  | .andAbsX w => [0x3D, loByte w, hiByte w]
  | .oraIndX b => [0x01, b]
  | .oraZp b => [0x05, b]
  | .oraImm v => [0x09, v]
  | .oraAbs w => [0x0D, loByte w, hiByte w]
  | .oraIndY b => [0x11, b]
  | .oraZpX b => [0x15, b]
  | .oraAbsY w => [0x19, loByte w, hiByte w]
  | .oraAbsX w => [0x1D, loByte w, hiByte w]
  | .eorIndX b => [0x41, b]
  | .eorZp b => [0x45, b]
  | .eorImm v => [0x49, v]
  | .eorAbs w => [0x4D, loByte w, hiByte w]
  | .eorIndY b => [0x51, b]
  | .eorZpX b => [0x55, b]
  | .eorAbsY w => [0x59, loByte w, hiByte w]
  | .eorAbsX w => [0x5D, loByte w, hiByte w]
  | .adcIndX b => [0x61, b]
  | .adcZp b => [0x65, b]
  | .adcImm v => [0x69, v]
  | .adcAbs w => [0x6D, loByte w, hiByte w]
  | .adcIndY b => [0x71, b]
  | .adcZpX b => [0x75, b]
  | .adcAbsY w => [0x79, loByte w, hiByte w]
  | .adcAbsX w => [0x7D, loByte w, hiByte w]
  | .sbcIndX b => [0xE1, b]
  | .sbcZp b => [0xE5, b]
  | .sbcImm v => [0xE9, v]
  | .sbcAbs w => [0xED, loByte w, hiByte w]
  | .sbcIndY b => [0xF1, b]
  | .sbcZpX b => [0xF5, b]
  | .sbcAbsY w => [0xF9, loByte w, hiByte w]
  | .sbcAbsX w => [0xFD, loByte w, hiByte w]
  | .aslZp b => [0x06, b]
  | .aslA => [0x0A]
  | .aslAbs w => [0x0E, loByte w, hiByte w]
  | .aslZpX b => [0x16, b]
  | .aslAbsX w => [0x1E, loByte w, hiByte w]
  | .lsrZp b => [0x46, b]
  | .lsrA => [0x4A]
  | .lsrAbs w => [0x4E, loByte w, hiByte w]
  | .lsrZpX b => [0x56, b]
  | .lsrAbsX w => [0x5E, loByte w, hiByte w]
  | .rolZp b => [0x26, b]
  | .rolA => [0x2A]
  | .rolAbs w => [0x2E, loByte w, hiByte w]
  | .rolZpX b => [0x36, b]
  | .rolAbsX w => [0x3E, loByte w, hiByte w]
  | .rorZp b => [0x66, b]
  | .rorA => [0x6A]
  | .rorAbs w => [0x6E, loByte w, hiByte w]
  | .rorZpX b => [0x76, b]
  | .rorAbsX w => [0x7E, loByte w, hiByte w]
  | .bitZp b => [0x24, b]
  | .bitAbs w => [0x2C, loByte w, hiByte w]
  | .bcc off => [0x90, byteOfOffset off]
  | .bcs off => [0xB0, byteOfOffset off]
  | .beq off => [0xF0, byteOfOffset off]
  | .bne off => [0xD0, byteOfOffset off]
  | .bmi off => [0x30, byteOfOffset off]
  | .bpl off => [0x10, byteOfOffset off]
  | .bvc off => [0x50, byteOfOffset off]
  | .bvs off => [0x70, byteOfOffset off]
  | .nop => [0xEA]
  | .brk => [0x00]
  | .cmpIndX b => [0xC1, b]
  | .cmpZp b => [0xC5, b]
  | .cmpImm v => [0xC9, v]
  | .cmpAbs w => [0xCD, loByte w, hiByte w]
  | .cmpIndY b => [0xD1, b]
  | .cmpZpX b => [0xD5, b]
  | .cmpAbsY w => [0xD9, loByte w, hiByte w]
  | .cmpAbsX w => [0xDD, loByte w, hiByte w]
  | .cpxImm v => [0xE0, v]
  | .cpxZp b => [0xE4, b]
  | .cpxAbs w => [0xEC, loByte w, hiByte w]
  | .cpyImm v => [0xC0, v]
  | .cpyZp b => [0xC4, b]
  | .cpyAbs w => [0xCC, loByte w, hiByte w]
  | .decZp b => [0xC6, b]
  | .decAbs w => [0xCE, loByte w, hiByte w]
  | .decZpX b => [0xD6, b]
  | .decAbsX w => [0xDE, loByte w, hiByte w]
  | .dex => [0xCA]
  | .dey => [0x88]
  | .jmpAbs w => [0x4C, loByte w, hiByte w]
  | .jmpInd w => [0x6C, loByte w, hiByte w]
  | .jsrAbs w => [0x20, loByte w, hiByte w]
  | .rts => [0x60]
  | .rti => [0x40]
  | .pha => [0x48]
  | .php => [0x08]
  | .pla => [0x68]
  | .plp => [0x28]
  | .clc => [0x18]
  | .cld => [0xD8]
  | .cli => [0x58]
  | .clv => [0xB8]
  | .sec => [0x38]
  | .sed => [0xF8]
  | .sei => [0x78]
  | .tsx => [0xBA]
  | .txs => [0x9A]

/-- Byte `k` of a little-endian number of `nbits` bits, the bits above `nbits` being 0 (R81's bit numbering:
byte k is bits 8k+7 to 8k). -/
def tableByte (nbits w k : Nat) : Byte := BitVec.ofNat 8 (w % 2 ^ nbits / 2 ^ (8 * k))

/-- The instruction the decoder reads from an instruction whose bits are `w`, numbered as
`spec/opcode_table.json` numbers them. -/
def decodeTableWord (nbits w : Nat) : Option Instr :=
  match decode [tableByte nbits w 0, tableByte nbits w 1, tableByte nbits w 2] with
  | .ok (i, _) => some i
  | .error _ => none

end Sys2Proof
end

