-- ==== Sys2Proof/Machine/State.lean ====
section
/-! DEFINITION. The machine's state as plain data (10_state.md), the reasons a step can stop, and the
states at construction and after reset. -/
namespace Sys2Proof.Machine

/-- The three 8-bit registers of the register file (R20). -/
inductive Reg where
  | A | X | Y
deriving DecidableEq, Repr

/-- The eight flags of P (R25). Their bit positions are `Flag.bit` in Flags.lean. -/
inductive Flag where
  | C | Z | I | D | B | B2 | V | N
deriving DecidableEq, Repr

/-- The engine's control state `es` (R32). Dispatching is seen only inside a step (R107). -/
inductive EngineState where
  | fetching | dispatching | halted | faulted
deriving DecidableEq, Repr

/-- The error causes of rule R220. `programTooLarge` is returned by `load` and never recorded. -/
inductive ErrorCode where
  | unrecognizedOpcode | unimplementedOpcode | invalidAddressingMode | programTooLarge
deriving DecidableEq, Repr

/-- The fault record's triple (R33). -/
structure FaultRecord where
  code : ErrorCode
  pcOp : Addr
  opcode : Byte
deriving DecidableEq, Repr

/-- What decode adds to what the engine holds during one step (R102): the descriptor `d`, and `pc_d`, the
`pc` on entry to Dispatching. -/
structure Decoded where
  desc : Descriptor
  pcD : Addr
deriving DecidableEq, Repr

/-- What the engine holds during one step only (R34): the opcode's address and byte, and once decoded the
descriptor and `pc_d`. -/
structure InFlight where
  pcOp : Addr
  op : Byte
  decoded : Option Decoded
deriving DecidableEq, Repr

/-- Memory contents as (address, byte) pairs: addresses strictly rising and below 65536, no byte 0x00,
which is what an unlisted address reads as (R31, R36: "zero-initialized"). The form is `Memory.wf`. -/
abbrev Memory := List Host.Cell

/-- Everything the spec gives the machine (INVENTORY.md, "State"). -/
structure State where
  /-- Accumulator A (R20). -/
  a : Byte
  /-- Index register X (R20). -/
  x : Byte
  /-- Index register Y (R20). -/
  y : Byte
  /-- Program counter (R22). -/
  pc : Addr
  /-- Stack pointer (R23, R24). -/
  sp : Byte
  /-- Status register P (R25). -/
  p : Byte
  /-- Memory (R31). -/
  mem : Memory
  /-- Engine control state (R32). -/
  es : EngineState
  /-- Fault record (R33). -/
  fault : Option FaultRecord
  /-- The engine's holdings during one step, none between steps (R34). -/
  inFlight : Option InFlight
deriving DecidableEq, Repr

/-- Why a step ends with no next state. -/
inductive Fault where
  /-- Raised by `step` in Faulted: "`run` and `step` return `Error(fault)` without executing anything"
  (R226, R113), with the record held. Safe: no instruction runs and nothing changes (log 12). -/
  | engineFaulted (record : Option FaultRecord)
  /-- Raised by `raiseError` where no instruction is in flight, so there is no opcode address to record.
  `step` never reaches it: it runs a meaning only with an instruction in flight. Safe (log 18). -/
  | noInstructionInFlight
deriving DecidableEq, Repr

/-- Why an instruction is refused. -/
inductive Refusal where
  /-- Raised by `exec` for an instruction with no meaning in this model yet. Safe. No arm uses it. -/
  | notModelled (mnemonic : String)
deriving DecidableEq, Repr

/-- What a meaning or a step answers. -/
abbrev Result := Host.Outcome State Fault Refusal

/-- The state at construction (R36, R250), for every value of the OPEN parameters. -/
def State.construct (params : Params) : State where
  a := 0x00
  x := 0x00
  y := 0x00
  pc := Config.pcInit
  sp := params.spReset
  p := params.pReset
  mem := []
  es := .fetching
  fault := none
  inFlight := none

/-- The machine right after reset (R251) over the memory of construction, with the default parameters
(log 1, 2): `pc` is the little-endian word at 0xFFFC of zeroed memory, 0x0000 (log 6). -/
def State.reset : State where
  a := 0x00
  x := 0x00
  y := 0x00
  pc := 0x0000
  sp := Config.defaultParams.spReset
  p := Config.defaultParams.pReset
  mem := []
  es := .fetching
  fault := none
  inFlight := none

end Sys2Proof.Machine
end

