-- ==== Sys2Proof/Machine/Ops.lean ====
section
/-! DEFINITION. The named operations over memory and registers (20_memory.md, 10_state.md), the phases of a
step around the instruction rule (R101 to R105), and `raise` (R225), the block's one exceptional event.
The block has no return from an exception (R230). -/
namespace Sys2Proof.Machine

/-! ### Memory -/

/-- The byte at an address; an unlisted address reads 0x00 (R36). -/
def Memory.read : Memory → Nat → Byte
  | [], _ => 0
  | (k, v) :: m, a => if a = k then v else Memory.read m a

/-- Memory with no entry at an address. -/
def Memory.erase : Memory → Nat → Memory
  | [], _ => []
  | (k, v) :: m, a => if a = k then Memory.erase m a else (k, v) :: Memory.erase m a

/-- Memory with the entry `(a, b)` at its place. -/
def Memory.insert : Memory → Nat → Byte → Memory
  | [], a, b => [(a, b)]
  | (k, v) :: m, a, b =>
    if a < k then (a, b) :: (k, v) :: m
    else if a = k then (a, b) :: m
    else (k, v) :: Memory.insert m a b

/-- Store a byte, keeping the canonical form: storing what an unlisted address reads as removes the
entry. -/
def Memory.write (m : Memory) (a : Nat) (b : Byte) : Memory :=
  if b = 0 then Memory.erase m a else Memory.insert m a b

/-- The canonical form from address `lo` on: addresses strictly rising and below 65536 (R40), no byte that an
unlisted address reads as. -/
def Memory.wfFrom : Nat → Memory → Bool
  | _, [] => true
  | lo, (k, v) :: m => decide (lo ≤ k ∧ k < Config.memSize ∧ v ≠ 0) && Memory.wfFrom (k + 1) m

/-- The canonical form of memory. -/
def Memory.wf (m : Memory) : Bool := Memory.wfFrom 0 m

/-- `MemRead(addr, 1)` (R41). -/
def State.read (s : State) (addr : Addr) : Byte := Memory.read s.mem addr.toNat

/-- `MemWrite(addr, 1, v)` (R42). -/
def State.write (s : State) (addr : Addr) (v : Byte) : State :=
  { s with mem := Memory.write s.mem addr.toNat v }

/-- `MemRead(addr, 2)` (R43): little-endian, the high byte's address wrapping modulo 65536 (log 7). -/
def State.read16 (s : State) (addr : Addr) : Addr := word16 (s.read (addr + 1)) (s.read addr)

/-- `MemWrite(addr, 2, v)` (R44). -/
def State.write16 (s : State) (addr v : Addr) : State :=
  (s.write addr (loByte v)).write (addr + 1) (hiByte v)

/-- Store bytes at consecutive addresses, the first at the lowest. -/
def State.writeBytes (s : State) (addr : Addr) : List Byte → State
  | [] => s
  | b :: bs => (s.write addr b).writeBytes (addr + 1) bs

/-! ### Registers -/

/-- `x[r]` (R20). -/
def State.reg (s : State) : Reg → Byte
  | .A => s.a
  | .X => s.x
  | .Y => s.y

/-- `x[r] <- v` (R20). -/
def State.setReg (s : State) (r : Reg) (v : Byte) : State :=
  match r with
  | .A => { s with a := v }
  | .X => { s with x := v }
  | .Y => { s with y := v }

/-- `P <- v`, the whole status byte. -/
def State.setP (s : State) (v : Byte) : State := { s with p := v }

/-- `pc <- target` (R22). -/
def State.setPc (s : State) (target : Addr) : State := { s with pc := target }

/-! ### Errors and halt -/

/-- The numeric code of an error (R220, D13). -/
def ErrorCode.number : ErrorCode → Nat
  | .unrecognizedOpcode => 1
  | .unimplementedOpcode => 2
  | .invalidAddressingMode => 3
  | .programTooLarge => 4

/-- `fault <- (code, pc_op, op)` and `es <- Faulted` (R225). -/
def State.enterFaulted (s : State) (code : ErrorCode) (c : InFlight) : State :=
  { s with fault := some ⟨code, c.pcOp, c.op⟩, es := .faulted }

/-- `raise E(pc_op, op)` (R225) for the instruction in flight. Everything but `fault` and `es` is kept. -/
def raiseError (code : ErrorCode) (s : State) : Result :=
  match s.inFlight with
  | some c => .next (s.enterFaulted code c)
  | none => .fault .noInstructionInFlight

/-- `halt`: `es <- Halted` (R105). -/
def State.enterHalted (s : State) : State := { s with es := .halted }

/-! ### The phases of a step -/

/-- Fetch (R101): hold the opcode's address and byte, `pc <- pc +16 1`, `es <- Dispatching`. -/
def State.fetch (s : State) : State :=
  { s with
    pc := s.pc + 1
    es := .dispatching
    inFlight := some { pcOp := s.pc, op := s.read s.pc, decoded := none } }

/-- The instruction at an address: its opcode byte and the two bytes after it (R71), decoded (R102). None
where the opcode byte is absent from the table. Reading has no side effect (R41). -/
def State.instrAt (s : State) (addr : Addr) : Option Instr :=
  decodeBytes (s.read addr) (s.read (addr + 1)) (s.read (addr + 2))

/-- The end of decode (R102): hold the descriptor and `pc_d`. -/
def State.latchDecoded (s : State) (d : Descriptor) : State :=
  { s with inFlight := s.inFlight.map fun c => { c with decoded := some { desc := d, pcD := s.pc } } }

/-- `PcChanged(pc_d, pc)` under `PC_CHANGED_TEST = ByValue` (R104, log 10). -/
def pcChanged (pcD pc : Addr) : Bool := pc != pcD

/-- Advance (R104): past the operand bytes unless the rule changed `pc`, then `es <- Fetching`. -/
def State.advance (s : State) : State :=
  match s.inFlight.bind InFlight.decoded with
  | some d =>
    { s with
      pc := if pcChanged d.pcD s.pc then s.pc else s.pc + BitVec.ofNat 16 (d.desc.len - 1)
      es := .fetching }
  | none => { s with es := .fetching }

/-- The end of a step: the advance where the engine is still Dispatching (R104), none after a halt (R105) or
a raise (R225); and nothing is in flight any more (R34). -/
def State.finish (s : State) : State :=
  let t := if s.es = .dispatching then s.advance else s
  { t with inFlight := none }

/-- `State.finish` on the next state of an answer. -/
def finishStep : Result → Result
  | .next t => .next t.finish
  | .fault r => .fault r
  | .refused r => .refused r

end Sys2Proof.Machine
end

