-- ==== Sys2Proof/Machine/Flags.lean ====
section
/-! DEFINITION. The status byte's flags (R25), the shared Zero/Negative update (R108), the adder of ADC and
SBC (R110), BIT's own flag rule (R190), and the shifts' result and carry (R170 to R177). -/
namespace Sys2Proof.Machine

/-- The bit of P that holds each flag (R25, log 5). -/
def Flag.bit : Flag → Nat
  | .C => 0
  | .Z => 1
  | .I => 2
  | .D => 3
  | .B => 4
  | .B2 => 5
  | .V => 6
  | .N => 7

/-- Read one flag of a status byte. -/
def getFlag (p : Byte) (f : Flag) : Bool := p.getLsbD f.bit

/-- Write one flag of a status byte, keeping the seven others. -/
def setFlag (p : Byte) (f : Flag) (v : Bool) : Byte :=
  if v then p ||| BitVec.twoPow 8 f.bit else p &&& ~~~ BitVec.twoPow 8 f.bit

/-- `P.f` (R9, R25). -/
def State.flag (s : State) (f : Flag) : Bool := getFlag s.p f

/-- `P.f <- v` (R9, R25). -/
def State.setFlag (s : State) (f : Flag) (v : Bool) : State := s.setP (Machine.setFlag s.p f v)

/-- `SetZN(v)` on a status byte (R108): Z iff the value is 0x00, N its bit 7. -/
def znFlags (p v : Byte) : Byte := setFlag (setFlag p .Z (v == 0)) .N (v.getLsbD 7)

/-- `SetZN(v)` (R108). -/
def State.setZN (s : State) (v : Byte) : State := s.setP (znFlags s.p v)

/-- The 9-bit sum of the adder (R110): `zext(a) + zext(m) + zext(C)`. -/
def sum9 (a m : Byte) (c : Bool) : BitVec 9 :=
  a.setWidth 9 + m.setWidth 9 + (BitVec.ofBool c).setWidth 9

/-- The adder's 8-bit result (R110): `sum[7:0]`. -/
def addResult (a m : Byte) (c : Bool) : Byte := (sum9 a m c).setWidth 8

/-- The adder's carry out (R110): `sum[8]`. -/
def addCarry (a m : Byte) (c : Bool) : Bool := (sum9 a m c).getLsbD 8

/-- The adder's overflow (R110): `((a ^ r) & (m ^ r))[7]`. -/
def addOverflow (a m : Byte) (c : Bool) : Bool :=
  ((a ^^^ addResult a m c) &&& (m ^^^ addResult a m c)).getLsbD 7

/-- `AddWithCarry(m)` (R110), the shared adder of ADC and SBC; C and V are written both ways (log 9), and D has
no effect (R30). -/
def State.addWithCarry (s : State) (m : Byte) : State :=
  let a := s.reg .A
  let c := s.flag .C
  let r := addResult a m c
  (((s.setFlag .C (addCarry a m c)).setFlag .V (addOverflow a m c)).setReg .A r).setZN r

/-- SBC's operand (R154): the 8-bit two's-complement negation `(~m) +8 1` (log 8). -/
def negated (m : Byte) : Byte := ~~~ m + 1

/-- BIT's flags (R190): Z from the AND with A, V and N from bits 6 and 7 of the byte itself. -/
def State.setBitTest (s : State) (m : Byte) : State :=
  ((s.setFlag .Z ((m &&& s.reg .A) == 0)).setFlag .V (m.getLsbD 6)).setFlag .N (m.getLsbD 7)

/-- The four shifts and rotates (44_shifts_rotates.md). -/
inductive Shift where
  | asl | lsr | rol | ror
deriving DecidableEq, Repr

/-- The shifted byte: ASL and ROL to the left, LSR and ROR to the right, the rotates with the old carry in the
vacated bit (R170 to R177). -/
def Shift.result (k : Shift) (v : Byte) (c : Bool) : Byte :=
  match k with
  | .asl => v <<< 1
  | .lsr => v >>> 1
  | .rol => v <<< 1 ||| (BitVec.ofBool c).setWidth 8
  | .ror => v >>> 1 ||| (BitVec.ofBool c).setWidth 8 <<< 7

/-- The bit shifted out: bit 7 to the left, bit 0 to the right (R170 to R177). -/
def Shift.carryOut (k : Shift) (v : Byte) : Bool :=
  match k with
  | .asl | .rol => v.getLsbD 7
  | .lsr | .ror => v.getLsbD 0

/-- The flags after a shift of `v` with result `r`: C the bit shifted out, then SetZN of the result. -/
def State.setShiftFlags (s : State) (k : Shift) (v r : Byte) : State :=
  (s.setFlag .C (k.carryOut v)).setZN r

end Sys2Proof.Machine
end

