-- ==== Sys2Proof/Machine/Operands.lean ====
section
/-! DEFINITION. The Addressing-Mode Resolver (20_memory.md R50 to R61) and the reading of a memory operand
(R111). `pc` is the address of the first operand byte (R50). -/
namespace Sys2Proof.Machine

/-- `zext_16` of a byte (R7). -/
def zext16 (b : Byte) : Addr := b.setWidth 16

/-- `ZPPointer(p)` (R58): the pointer's high byte comes from the next zero-page byte, wrapping in page 0. -/
def State.zpPointer (s : State) (p : Byte) : Addr := word16 (s.read (zext16 (p + 1))) (s.read (zext16 p))

/-- The effective address of an operand (R51 to R60), none for the tag None (R61). -/
def Operand.ea (o : Operand) (s : State) : Option Addr :=
  match o with
  | .imm _ => some s.pc
  | .zp b => some (zext16 b)
  | .zpX b => some (zext16 (b + s.reg .X))
  | .zpY b => some (zext16 (b + s.reg .Y))
  | .abs w => some w
  | .absX w => some (w + zext16 (s.reg .X))
  | .absY w => some (w + zext16 (s.reg .Y))
  | .indX b => some (s.zpPointer (b + s.reg .X))
  | .indY b => some (s.zpPointer b + zext16 (s.reg .Y))
  | .noMode => none

/-- The operand byte (R111): the byte at the effective address; of an immediate, the byte decoded there
(R73, log 17). -/
def Operand.value (o : Operand) (s : State) : Option Byte :=
  match o with
  | .imm v => some v
  | _ => (Operand.ea o s).map s.read

/-- The operand of a mode, its bytes read at `pc` (R50, R73). -/
def operandAt (m : Mode) (s : State) : Operand :=
  match m with
  | .immediate => .imm (s.read s.pc)
  | .zeroPage => .zp (s.read s.pc)
  | .zeroPageX => .zpX (s.read s.pc)
  | .zeroPageY => .zpY (s.read s.pc)
  | .absolute => .abs (s.read16 s.pc)
  | .absoluteX => .absX (s.read16 s.pc)
  | .absoluteY => .absY (s.read16 s.pc)
  | .indirectX => .indX (s.read s.pc)
  | .indirectY => .indY (s.read s.pc)
  | .noMode => .noMode

/-- `Resolve(mode)` (R50): the effective address, from `pc`, X, Y and memory alone; none where it raises. -/
def resolve (m : Mode) (s : State) : Option Addr := Operand.ea (operandAt m s) s

/-- A rule that requires an address (R111): `let ea = Resolve(d.mode)`, then the rule; InvalidAddressingMode for
the tag None (R61, R223). -/
def withAddress (o : Operand) (s : State) (rule : Addr → State) : Result :=
  match Operand.ea o s with
  | some ea => .next (rule ea)
  | none => raiseError .invalidAddressingMode s

/-- A rule that reads its operand (R111): `let m = MemRead(ea, 1)`, then the rule; InvalidAddressingMode for the
tag None (R61, R223). -/
def withValue (o : Operand) (s : State) (rule : Byte → State) : Result :=
  match Operand.value o s with
  | some m => .next (rule m)
  | none => raiseError .invalidAddressingMode s

end Sys2Proof.Machine
end

