-- ==== Sys2Proof/Machine/Arithmetic.lean ====
section
/-! DEFINITION. Arithmetic instructions (43_bitwise_arithmetic.md section 2). -/
namespace Sys2Proof.Machine

/-- ADC (R153): AddWithCarry of the operand byte. -/
def adcRule (o : Operand) (s : State) : Result :=
  withValue o s fun m => s.addWithCarry m

/-- SBC (R154): AddWithCarry of the operand byte's 8-bit negation (C8). -/
def sbcRule (o : Operand) (s : State) : Result :=
  withValue o s fun m => s.addWithCarry (negated m)

/-- `ADC ($nn,X)` (R153). -/
def execAdcIndX (b : Byte) (s : State) : Result := adcRule (.indX b) s

/-- `ADC $nn` (R153). -/
def execAdcZp (b : Byte) (s : State) : Result := adcRule (.zp b) s

/-- `ADC #$nn` (R153). -/
def execAdcImm (v : Byte) (s : State) : Result := adcRule (.imm v) s

/-- `ADC $hhll` (R153). -/
def execAdcAbs (w : Addr) (s : State) : Result := adcRule (.abs w) s

/-- `ADC ($nn),Y` (R153). -/
def execAdcIndY (b : Byte) (s : State) : Result := adcRule (.indY b) s

/-- `ADC $nn,X` (R153). -/
def execAdcZpX (b : Byte) (s : State) : Result := adcRule (.zpX b) s

/-- `ADC $hhll,Y` (R153). -/
def execAdcAbsY (w : Addr) (s : State) : Result := adcRule (.absY w) s

/-- `ADC $hhll,X` (R153). -/
def execAdcAbsX (w : Addr) (s : State) : Result := adcRule (.absX w) s

/-- `SBC ($nn,X)` (R154). -/
def execSbcIndX (b : Byte) (s : State) : Result := sbcRule (.indX b) s

/-- `SBC $nn` (R154). -/
def execSbcZp (b : Byte) (s : State) : Result := sbcRule (.zp b) s

/-- `SBC #$nn` (R154). -/
def execSbcImm (v : Byte) (s : State) : Result := sbcRule (.imm v) s

/-- `SBC $hhll` (R154). -/
def execSbcAbs (w : Addr) (s : State) : Result := sbcRule (.abs w) s

/-- `SBC ($nn),Y` (R154). -/
def execSbcIndY (b : Byte) (s : State) : Result := sbcRule (.indY b) s

/-- `SBC $nn,X` (R154). -/
def execSbcZpX (b : Byte) (s : State) : Result := sbcRule (.zpX b) s

/-- `SBC $hhll,Y` (R154). -/
def execSbcAbsY (w : Addr) (s : State) : Result := sbcRule (.absY w) s

/-- `SBC $hhll,X` (R154). -/
def execSbcAbsX (w : Addr) (s : State) : Result := sbcRule (.absX w) s

end Sys2Proof.Machine
end

