-- ==== Sys2Proof/Machine/BitTest.lean ====
section
/-! DEFINITION. Bit test (45_bit_test.md). -/
namespace Sys2Proof.Machine

/-- BIT (R190): Z, V and N by its own rule; A and memory are unchanged. -/
def bitRule (o : Operand) (s : State) : Result :=
  withValue o s fun m => s.setBitTest m

/-- `BIT $nn` (R190). -/
def execBitZp (b : Byte) (s : State) : Result := bitRule (.zp b) s

/-- `BIT $hhll` (R190). -/
def execBitAbs (w : Addr) (s : State) : Result := bitRule (.abs w) s

end Sys2Proof.Machine
end

