-- ==== Sys2Proof/Machine/Bitwise.lean ====
section
/-! DEFINITION. Bitwise instructions (43_bitwise_arithmetic.md section 1). -/
namespace Sys2Proof.Machine

/-- AND, ORA, EOR (R150 to R152): A combined with the operand byte into A, then SetZN of it. -/
def bitwiseRule (f : Byte → Byte → Byte) (o : Operand) (s : State) : Result :=
  withValue o s fun m => (s.setReg .A (f (s.reg .A) m)).setZN (f (s.reg .A) m)

/-- `AND ($nn,X)` (R150). -/
def execAndIndX (b : Byte) (s : State) : Result := bitwiseRule (· &&& ·) (.indX b) s

/-- `AND $nn` (R150). -/
def execAndZp (b : Byte) (s : State) : Result := bitwiseRule (· &&& ·) (.zp b) s

/-- `AND #$nn` (R150). -/
def execAndImm (v : Byte) (s : State) : Result := bitwiseRule (· &&& ·) (.imm v) s

/-- `AND $hhll` (R150). -/
def execAndAbs (w : Addr) (s : State) : Result := bitwiseRule (· &&& ·) (.abs w) s

/-- `AND ($nn),Y` (R150). -/
def execAndIndY (b : Byte) (s : State) : Result := bitwiseRule (· &&& ·) (.indY b) s

/-- `AND $nn,X` (R150). -/
def execAndZpX (b : Byte) (s : State) : Result := bitwiseRule (· &&& ·) (.zpX b) s

/-- `AND $hhll,Y` (R150). -/
def execAndAbsY (w : Addr) (s : State) : Result := bitwiseRule (· &&& ·) (.absY w) s

/-- `AND $hhll,X` (R150). -/
def execAndAbsX (w : Addr) (s : State) : Result := bitwiseRule (· &&& ·) (.absX w) s

/-- `ORA ($nn,X)` (R151). -/
def execOraIndX (b : Byte) (s : State) : Result := bitwiseRule (· ||| ·) (.indX b) s

/-- `ORA $nn` (R151). -/
def execOraZp (b : Byte) (s : State) : Result := bitwiseRule (· ||| ·) (.zp b) s

/-- `ORA #$nn` (R151). -/
def execOraImm (v : Byte) (s : State) : Result := bitwiseRule (· ||| ·) (.imm v) s

/-- `ORA $hhll` (R151). -/
def execOraAbs (w : Addr) (s : State) : Result := bitwiseRule (· ||| ·) (.abs w) s

/-- `ORA ($nn),Y` (R151). -/
def execOraIndY (b : Byte) (s : State) : Result := bitwiseRule (· ||| ·) (.indY b) s

/-- `ORA $nn,X` (R151). -/
def execOraZpX (b : Byte) (s : State) : Result := bitwiseRule (· ||| ·) (.zpX b) s

/-- `ORA $hhll,Y` (R151). -/
def execOraAbsY (w : Addr) (s : State) : Result := bitwiseRule (· ||| ·) (.absY w) s

/-- `ORA $hhll,X` (R151). -/
def execOraAbsX (w : Addr) (s : State) : Result := bitwiseRule (· ||| ·) (.absX w) s

/-- `EOR ($nn,X)` (R152). -/
def execEorIndX (b : Byte) (s : State) : Result := bitwiseRule (· ^^^ ·) (.indX b) s

/-- `EOR $nn` (R152). -/
def execEorZp (b : Byte) (s : State) : Result := bitwiseRule (· ^^^ ·) (.zp b) s

/-- `EOR #$nn` (R152). -/
def execEorImm (v : Byte) (s : State) : Result := bitwiseRule (· ^^^ ·) (.imm v) s

/-- `EOR $hhll` (R152). -/
def execEorAbs (w : Addr) (s : State) : Result := bitwiseRule (· ^^^ ·) (.abs w) s

/-- `EOR ($nn),Y` (R152). -/
def execEorIndY (b : Byte) (s : State) : Result := bitwiseRule (· ^^^ ·) (.indY b) s

/-- `EOR $nn,X` (R152). -/
def execEorZpX (b : Byte) (s : State) : Result := bitwiseRule (· ^^^ ·) (.zpX b) s

/-- `EOR $hhll,Y` (R152). -/
def execEorAbsY (w : Addr) (s : State) : Result := bitwiseRule (· ^^^ ·) (.absY w) s

/-- `EOR $hhll,X` (R152). -/
def execEorAbsX (w : Addr) (s : State) : Result := bitwiseRule (· ^^^ ·) (.absX w) s

end Sys2Proof.Machine
end

