-- ==== Sys2Proof/Machine/Branches.lean ====
section
/-! DEFINITION. Conditional branches (46_branches.md). -/
namespace Sys2Proof.Machine

/-- `Branch(cond)` (R195). At entry `pc` is the address of the offset byte: a taken branch goes to the address after
it plus the signed offset, wrapping modulo 65536; otherwise nothing happens here and the advance (R104)
consumes the offset byte. -/
def branchRule (cond : Bool) (off : Int) (s : State) : Result :=
  .next (if cond then s.setPc (s.pc + 1 + BitVec.ofInt 16 off) else s)

/-- `BCC label` (R196). -/
def execBcc (off : Int) (s : State) : Result := branchRule (!s.flag .C) off s

/-- `BCS label` (R197). -/
def execBcs (off : Int) (s : State) : Result := branchRule (s.flag .C) off s

/-- `BEQ label` (R198). -/
def execBeq (off : Int) (s : State) : Result := branchRule (s.flag .Z) off s

/-- `BNE label` (R199). -/
def execBne (off : Int) (s : State) : Result := branchRule (!s.flag .Z) off s

/-- `BMI label` (R200). -/
def execBmi (off : Int) (s : State) : Result := branchRule (s.flag .N) off s

/-- `BPL label` (R201). -/
def execBpl (off : Int) (s : State) : Result := branchRule (!s.flag .N) off s

/-- `BVC label` (R202). -/
def execBvc (off : Int) (s : State) : Result := branchRule (!s.flag .V) off s

/-- `BVS label` (R203). -/
def execBvs (off : Int) (s : State) : Result := branchRule (s.flag .V) off s

end Sys2Proof.Machine
end

