-- ==== Sys2Proof/Machine/Increment.lean ====
section
/-! DEFINITION. Increment by one (42_increment.md). -/
namespace Sys2Proof.Machine

/-- INC (R140): the byte at the effective address plus 1, written back, then SetZN of it. -/
def incMemRule (o : Operand) (s : State) : Result :=
  withAddress o s fun ea => (s.write ea (s.read ea + 1)).setZN (s.read ea + 1)

/-- INX and INY (R141, R142): the register plus 1, committed, then SetZN of it (C1). -/
def incRegRule (r : Reg) (s : State) : Result :=
  .next ((s.setReg r (s.reg r + 1)).setZN (s.reg r + 1))

/-- `INC $nn` (R140). -/
def execIncZp (b : Byte) (s : State) : Result := incMemRule (.zp b) s

/-- `INC $hhll` (R140). -/
def execIncAbs (w : Addr) (s : State) : Result := incMemRule (.abs w) s

/-- `INC $nn,X` (R140). -/
def execIncZpX (b : Byte) (s : State) : Result := incMemRule (.zpX b) s

/-- `INC $hhll,X` (R140). -/
def execIncAbsX (w : Addr) (s : State) : Result := incMemRule (.absX w) s

/-- `INX` (R141). -/
def execInx (s : State) : Result := incRegRule .X s

/-- `INY` (R142). -/
def execIny (s : State) : Result := incRegRule .Y s

end Sys2Proof.Machine
end

