-- ==== Sys2Proof/Machine/Loads.lean ====
section
/-! DEFINITION. Loads, stores and register transfers (41_loads_stores_transfers.md). -/
namespace Sys2Proof.Machine

/-- A load (R120 to R122): the operand byte into the register, then SetZN of it. -/
def loadRule (r : Reg) (o : Operand) (s : State) : Result :=
  withValue o s fun m => (s.setReg r m).setZN m

/-- A store (R123 to R125): the register to the effective address; no flag. -/
def storeRule (r : Reg) (o : Operand) (s : State) : Result :=
  withAddress o s fun ea => s.write ea (s.reg r)

/-- A transfer (R126 to R129): the source into the destination, then SetZN of the destination. -/
def transferRule (src dst : Reg) (s : State) : Result :=
  .next ((s.setReg dst (s.reg src)).setZN (s.reg src))

/-- `LDA ($nn,X)` (R120). -/
def execLdaIndX (b : Byte) (s : State) : Result := loadRule .A (.indX b) s

/-- `LDA $nn` (R120). -/
def execLdaZp (b : Byte) (s : State) : Result := loadRule .A (.zp b) s

/-- `LDA #$nn` (R120). -/
def execLdaImm (v : Byte) (s : State) : Result := loadRule .A (.imm v) s

/-- `LDA $hhll` (R120). -/
def execLdaAbs (w : Addr) (s : State) : Result := loadRule .A (.abs w) s

/-- `LDA ($nn),Y` (R120). -/
def execLdaIndY (b : Byte) (s : State) : Result := loadRule .A (.indY b) s

/-- `LDA $nn,X` (R120). -/
def execLdaZpX (b : Byte) (s : State) : Result := loadRule .A (.zpX b) s

/-- `LDA $hhll,Y` (R120). -/
def execLdaAbsY (w : Addr) (s : State) : Result := loadRule .A (.absY w) s

/-- `LDA $hhll,X` (R120). -/
def execLdaAbsX (w : Addr) (s : State) : Result := loadRule .A (.absX w) s

/-- `LDX #$nn` (R121). -/
def execLdxImm (v : Byte) (s : State) : Result := loadRule .X (.imm v) s

/-- `LDX $nn` (R121). -/
def execLdxZp (b : Byte) (s : State) : Result := loadRule .X (.zp b) s

/-- `LDX $hhll` (R121). -/
def execLdxAbs (w : Addr) (s : State) : Result := loadRule .X (.abs w) s

/-- `LDX $nn,Y` (R121). -/
def execLdxZpY (b : Byte) (s : State) : Result := loadRule .X (.zpY b) s

/-- `LDX $hhll,Y` (R121). -/
def execLdxAbsY (w : Addr) (s : State) : Result := loadRule .X (.absY w) s

/-- `LDY #$nn` (R122). -/
def execLdyImm (v : Byte) (s : State) : Result := loadRule .Y (.imm v) s

/-- `LDY $nn` (R122). -/
def execLdyZp (b : Byte) (s : State) : Result := loadRule .Y (.zp b) s

/-- `LDY $hhll` (R122). -/
def execLdyAbs (w : Addr) (s : State) : Result := loadRule .Y (.abs w) s

/-- `LDY $nn,X` (R122). -/
def execLdyZpX (b : Byte) (s : State) : Result := loadRule .Y (.zpX b) s

/-- `LDY $hhll,X` (R122). -/
def execLdyAbsX (w : Addr) (s : State) : Result := loadRule .Y (.absX w) s

/-- `STA ($nn,X)` (R123). -/
def execStaIndX (b : Byte) (s : State) : Result := storeRule .A (.indX b) s

/-- `STA $nn` (R123). -/
def execStaZp (b : Byte) (s : State) : Result := storeRule .A (.zp b) s

/-- `STA $hhll` (R123). -/
def execStaAbs (w : Addr) (s : State) : Result := storeRule .A (.abs w) s

/-- `STA ($nn),Y` (R123). -/
def execStaIndY (b : Byte) (s : State) : Result := storeRule .A (.indY b) s

/-- `STA $nn,X` (R123). -/
def execStaZpX (b : Byte) (s : State) : Result := storeRule .A (.zpX b) s

/-- `STA $hhll,Y` (R123). -/
def execStaAbsY (w : Addr) (s : State) : Result := storeRule .A (.absY w) s

/-- `STA $hhll,X` (R123). -/
def execStaAbsX (w : Addr) (s : State) : Result := storeRule .A (.absX w) s

/-- `STX $nn` (R124). -/
def execStxZp (b : Byte) (s : State) : Result := storeRule .X (.zp b) s

/-- `STX $hhll` (R124). -/
def execStxAbs (w : Addr) (s : State) : Result := storeRule .X (.abs w) s

/-- `STX $nn,Y` (R124). -/
def execStxZpY (b : Byte) (s : State) : Result := storeRule .X (.zpY b) s

/-- `STY $nn` (R125). -/
def execStyZp (b : Byte) (s : State) : Result := storeRule .Y (.zp b) s

/-- `STY $hhll` (R125). -/
def execStyAbs (w : Addr) (s : State) : Result := storeRule .Y (.abs w) s

/-- `STY $nn,X` (R125). -/
def execStyZpX (b : Byte) (s : State) : Result := storeRule .Y (.zpX b) s

/-- `TAX` (R126). -/
def execTax (s : State) : Result := transferRule .A .X s

/-- `TXA` (R127). -/
def execTxa (s : State) : Result := transferRule .X .A s

/-- `TAY` (R128). -/
def execTay (s : State) : Result := transferRule .A .Y s

/-- `TYA` (R129). -/
def execTya (s : State) : Result := transferRule .Y .A s

end Sys2Proof.Machine
end

