-- ==== Sys2Proof/Machine/NopHalt.lean ====
section
/-! DEFINITION. No-op and halt (47_nop_halt.md). -/
namespace Sys2Proof.Machine


/-- `NOP` (R210). -/
def execNop (s : State) : Result := .next s

/-- `BRK` (R211). -/
def execBrk (s : State) : Result := .next s.enterHalted

end Sys2Proof.Machine
end

