-- ==== Sys2Proof/Machine/Shifts.lean ====
section
/-! DEFINITION. Shifts and rotates, accumulator and memory forms (44_shifts_rotates.md). -/
namespace Sys2Proof.Machine

/-- The accumulator form (R170, R172, R174, R176): A shifted, C the bit shifted out, SetZN of the result. -/
def shiftAccRule (k : Shift) (s : State) : Result :=
  let v := s.reg .A
  let r := k.result v (s.flag .C)
  .next ((s.setReg .A r).setShiftFlags k v r)

/-- The memory form (R171, R173, R175, R177): the byte at the effective address shifted and written back; A is
neither read nor written. -/
def shiftMemRule (k : Shift) (o : Operand) (s : State) : Result :=
  withAddress o s fun ea =>
    let v := s.read ea
    let r := k.result v (s.flag .C)
    (s.write ea r).setShiftFlags k v r

/-- `ASL $nn` (R171). -/
def execAslZp (b : Byte) (s : State) : Result := shiftMemRule .asl (.zp b) s

/-- `ASL A` (R170). -/
def execAslA (s : State) : Result := shiftAccRule .asl s

/-- `ASL $hhll` (R171). -/
def execAslAbs (w : Addr) (s : State) : Result := shiftMemRule .asl (.abs w) s

/-- `ASL $nn,X` (R171). -/
def execAslZpX (b : Byte) (s : State) : Result := shiftMemRule .asl (.zpX b) s

/-- `ASL $hhll,X` (R171). -/
def execAslAbsX (w : Addr) (s : State) : Result := shiftMemRule .asl (.absX w) s

/-- `LSR $nn` (R173). -/
def execLsrZp (b : Byte) (s : State) : Result := shiftMemRule .lsr (.zp b) s

/-- `LSR A` (R172). -/
def execLsrA (s : State) : Result := shiftAccRule .lsr s

/-- `LSR $hhll` (R173). -/
def execLsrAbs (w : Addr) (s : State) : Result := shiftMemRule .lsr (.abs w) s

/-- `LSR $nn,X` (R173). -/
def execLsrZpX (b : Byte) (s : State) : Result := shiftMemRule .lsr (.zpX b) s

/-- `LSR $hhll,X` (R173). -/
def execLsrAbsX (w : Addr) (s : State) : Result := shiftMemRule .lsr (.absX w) s

/-- `ROL $nn` (R175). -/
def execRolZp (b : Byte) (s : State) : Result := shiftMemRule .rol (.zp b) s

/-- `ROL A` (R174). -/
def execRolA (s : State) : Result := shiftAccRule .rol s

/-- `ROL $hhll` (R175). -/
def execRolAbs (w : Addr) (s : State) : Result := shiftMemRule .rol (.abs w) s

/-- `ROL $nn,X` (R175). -/
def execRolZpX (b : Byte) (s : State) : Result := shiftMemRule .rol (.zpX b) s

/-- `ROL $hhll,X` (R175). -/
def execRolAbsX (w : Addr) (s : State) : Result := shiftMemRule .rol (.absX w) s

/-- `ROR $nn` (R177). -/
def execRorZp (b : Byte) (s : State) : Result := shiftMemRule .ror (.zp b) s

/-- `ROR A` (R176). -/
def execRorA (s : State) : Result := shiftAccRule .ror s

/-- `ROR $hhll` (R177). -/
def execRorAbs (w : Addr) (s : State) : Result := shiftMemRule .ror (.abs w) s

/-- `ROR $nn,X` (R177). -/
def execRorZpX (b : Byte) (s : State) : Result := shiftMemRule .ror (.zpX b) s

/-- `ROR $hhll,X` (R177). -/
def execRorAbsX (w : Addr) (s : State) : Result := shiftMemRule .ror (.absX w) s

end Sys2Proof.Machine
end

