-- ==== Sys2Proof/Machine/Unimplemented.lean ====
section
/-! DEFINITION. The 38 table bytes the dispatch does not cover (R76): each raises UnimplementedOpcode (R103,
R222), whatever its operand bytes are. -/
namespace Sys2Proof.Machine

/-- Error (b) of rule R220 (R103, R222). -/
def unimplementedRule (s : State) : Result := raiseError .unimplementedOpcode s

/-- `CMP ($nn,X)` (R222). -/
def execCmpIndX (_b : Byte) (s : State) : Result := unimplementedRule s

/-- `CMP $nn` (R222). -/
def execCmpZp (_b : Byte) (s : State) : Result := unimplementedRule s

/-- `CMP #$nn` (R222). -/
def execCmpImm (_v : Byte) (s : State) : Result := unimplementedRule s

/-- `CMP $hhll` (R222). -/
def execCmpAbs (_w : Addr) (s : State) : Result := unimplementedRule s

/-- `CMP ($nn),Y` (R222). -/
def execCmpIndY (_b : Byte) (s : State) : Result := unimplementedRule s

/-- `CMP $nn,X` (R222). -/
def execCmpZpX (_b : Byte) (s : State) : Result := unimplementedRule s

/-- `CMP $hhll,Y` (R222). -/
def execCmpAbsY (_w : Addr) (s : State) : Result := unimplementedRule s

/-- `CMP $hhll,X` (R222). -/
def execCmpAbsX (_w : Addr) (s : State) : Result := unimplementedRule s

/-- `CPX #$nn` (R222). -/
def execCpxImm (_v : Byte) (s : State) : Result := unimplementedRule s

/-- `CPX $nn` (R222). -/
def execCpxZp (_b : Byte) (s : State) : Result := unimplementedRule s

/-- `CPX $hhll` (R222). -/
def execCpxAbs (_w : Addr) (s : State) : Result := unimplementedRule s

/-- `CPY #$nn` (R222). -/
def execCpyImm (_v : Byte) (s : State) : Result := unimplementedRule s

/-- `CPY $nn` (R222). -/
def execCpyZp (_b : Byte) (s : State) : Result := unimplementedRule s

/-- `CPY $hhll` (R222). -/
def execCpyAbs (_w : Addr) (s : State) : Result := unimplementedRule s

/-- `DEC $nn` (R222). -/
def execDecZp (_b : Byte) (s : State) : Result := unimplementedRule s

/-- `DEC $hhll` (R222). -/
def execDecAbs (_w : Addr) (s : State) : Result := unimplementedRule s

/-- `DEC $nn,X` (R222). -/
def execDecZpX (_b : Byte) (s : State) : Result := unimplementedRule s

/-- `DEC $hhll,X` (R222). -/
def execDecAbsX (_w : Addr) (s : State) : Result := unimplementedRule s

/-- `DEX` (R222). -/
def execDex (s : State) : Result := unimplementedRule s

/-- `DEY` (R222). -/
def execDey (s : State) : Result := unimplementedRule s

/-- `JMP $hhll` (R222). -/
def execJmpAbs (_w : Addr) (s : State) : Result := unimplementedRule s

/-- `JMP ($hhll)` (R222). -/
def execJmpInd (_w : Addr) (s : State) : Result := unimplementedRule s

/-- `JSR $hhll` (R222). -/
def execJsrAbs (_w : Addr) (s : State) : Result := unimplementedRule s

/-- `RTS` (R222). -/
def execRts (s : State) : Result := unimplementedRule s

/-- `RTI` (R222). -/
def execRti (s : State) : Result := unimplementedRule s

/-- `PHA` (R222). -/
def execPha (s : State) : Result := unimplementedRule s

/-- `PHP` (R222). -/
def execPhp (s : State) : Result := unimplementedRule s

/-- `PLA` (R222). -/
def execPla (s : State) : Result := unimplementedRule s

/-- `PLP` (R222). -/
def execPlp (s : State) : Result := unimplementedRule s

/-- `CLC` (R222). -/
def execClc (s : State) : Result := unimplementedRule s

/-- `CLD` (R222). -/
def execCld (s : State) : Result := unimplementedRule s

/-- `CLI` (R222). -/
def execCli (s : State) : Result := unimplementedRule s

/-- `CLV` (R222). -/
def execClv (s : State) : Result := unimplementedRule s

/-- `SEC` (R222). -/
def execSec (s : State) : Result := unimplementedRule s

/-- `SED` (R222). -/
def execSed (s : State) : Result := unimplementedRule s

/-- `SEI` (R222). -/
def execSei (s : State) : Result := unimplementedRule s

/-- `TSX` (R222). -/
def execTsx (s : State) : Result := unimplementedRule s

/-- `TXS` (R222). -/
def execTxs (s : State) : Result := unimplementedRule s

end Sys2Proof.Machine
end

