-- ==== Sys2Proof/Machine/Step.lean ====
section
/-! DEFINITION. One step: the host's single-step entry point (R113) and the whole instruction it runs (R101 to
R107). -/
namespace Sys2Proof.Machine

/-- One whole instruction (R101 to R105): fetch, decode, dispatch, and the end of the step. An opcode byte absent
from the table raises UnrecognizedOpcode (R102). -/
def runInstruction (s : State) : Result :=
  match s.instrAt s.pc with
  | none => finishStep (raiseError .unrecognizedOpcode s.fetch)
  | some i => finishStep (exec i (s.fetch.latchDecoded i.descriptor))

/-- `step()` (R113): exactly one instruction when `es` = Fetching; nothing otherwise. From Faulted it answers the
recorded error (R226, log 12). -/
def step (s : State) : Host.Outcome State Fault Refusal :=
  match s.es with
  | .fetching => runInstruction s
  | .halted => .next s
  | .dispatching => .next s
  | .faulted => .fault (.engineFaulted s.fault)

/-- `s` with the instruction whose bits are `w` stored at `pc`, where the next step fetches it, and the engine
ready to fetch (log 16). -/
def State.withFetchWord (s : State) (nbits w : Nat) : State :=
  { s.writeBytes s.pc [tableByte nbits w 0, tableByte nbits w 1, tableByte nbits w 2] with
    es := .fetching
    fault := none }

end Sys2Proof.Machine
end

