-- ==== Sys2Proof/Machine/Assembly.lean ====
section
/-! DEFINITION. Assembler notation (R80 and the syntax column of R72): how an instruction is written, and the
offset an assembler computes for a branch. Nothing in the machine reads it (log 23). -/
namespace Sys2Proof

/-- The mnemonic as written. -/
def Mnemonic.name : Mnemonic → String
  | .LDA => "LDA" | .LDX => "LDX" | .LDY => "LDY" | .STA => "STA" | .STX => "STX" | .STY => "STY"
  | .TAX => "TAX" | .TXA => "TXA" | .TAY => "TAY" | .TYA => "TYA" | .INC => "INC" | .INX => "INX"
  | .INY => "INY" | .AND => "AND" | .ORA => "ORA" | .EOR => "EOR" | .ADC => "ADC" | .SBC => "SBC"
  | .ASL => "ASL" | .LSR => "LSR" | .ROL => "ROL" | .ROR => "ROR" | .BIT => "BIT" | .BCC => "BCC"
  | .BCS => "BCS" | .BEQ => "BEQ" | .BNE => "BNE" | .BMI => "BMI" | .BPL => "BPL" | .BVC => "BVC"
  | .BVS => "BVS" | .NOP => "NOP" | .BRK => "BRK" | .CMP => "CMP" | .CPX => "CPX" | .CPY => "CPY"
  | .DEC => "DEC" | .DEX => "DEX" | .DEY => "DEY" | .JMP => "JMP" | .JSR => "JSR" | .RTS => "RTS"
  | .RTI => "RTI" | .PHA => "PHA" | .PHP => "PHP" | .PLA => "PLA" | .PLP => "PLP" | .CLC => "CLC"
  | .CLD => "CLD" | .CLI => "CLI" | .CLV => "CLV" | .SEC => "SEC" | .SED => "SED" | .SEI => "SEI"
  | .TSX => "TSX" | .TXS => "TXS"

/-- One hexadecimal digit. -/
def hexDigit (n : Nat) : String :=
  ["0", "1", "2", "3", "4", "5", "6", "7", "8", "9", "A", "B", "C", "D", "E", "F"].getD n ""

/-- A byte as two hexadecimal digits. -/
def hexByte (b : Byte) : String := hexDigit (b.toNat / 16) ++ hexDigit (b.toNat % 16)

/-- The operand of a form as written (R72), from its operand bytes `b1` and `b2`; a branch is written with its
target (R80), which the instruction's address `pcOp` gives. -/
def Form.operandText (f : Form) (pcOp : Addr) (b1 b2 : Byte) : String :=
  let target : Addr := pcOp + 2 + BitVec.ofInt 16 (offsetOfByte b1)
  let word := "$" ++ hexByte b2 ++ hexByte b1
  match f with
  | .immediate => " #$" ++ hexByte b1
  | .zeroPage => " $" ++ hexByte b1
  | .zeroPageX => " $" ++ hexByte b1 ++ ",X"
  | .zeroPageY => " $" ++ hexByte b1 ++ ",Y"
  | .absolute => " " ++ word
  | .absoluteX => " " ++ word ++ ",X"
  | .absoluteY => " " ++ word ++ ",Y"
  | .indirectX => " ($" ++ hexByte b1 ++ ",X)"
  | .indirectY => " ($" ++ hexByte b1 ++ "),Y"
  | .accumulator => " A"
  | .implied => ""
  | .relative => " $" ++ hexByte (hiByte target) ++ hexByte (loByte target)
  | .indirect => " (" ++ word ++ ")"

/-- An instruction at an address as written: the mnemonic, one space, and the operand (R80). -/
def Instr.assembly (i : Instr) (pcOp : Addr) : String :=
  i.mnemonic.name ++ i.descriptor.form.operandText pcOp ((encode i).getD 1 0) ((encode i).getD 2 0)

/-- The offset an assembler computes for a branch at `pcOp` to `target` (R80): target minus (pcOp + 2), which must
lie in -128 to 127; none where it does not. -/
def assembleOffset (pcOp target : Addr) : Option Int :=
  let d := (target - (pcOp + 2)).toInt
  if offsetInRange d then some d else none

end Sys2Proof
end

