-- ==== Sys2Proof/Machine/HostInterface.lean ====
section
/-! DEFINITION. The host's entry points (R4): construct, `load`, `reset`, `run`, `step`, `load_and_run`, and its
writes of registers and memory between steps (R250 to R256). Each is a function of the state between steps. -/
namespace Sys2Proof.Machine

/-- What an entry point returns to the host. -/
inductive HostReturn where
  /-- `Ok`. -/
  | ok
  /-- `Error(fault)` of `run` and `step` (R112, R113). -/
  | error (record : Option FaultRecord)
  /-- `Error(ProgramTooLarge(n))` of `load` (R224, R252). -/
  | programTooLarge (n : Nat)
  /-- `run` has not returned within the steps it was given (R112, U13, log 19). -/
  | notEnded
  /-- A step was refused; no step of this model is. -/
  | refused (r : Refusal)
deriving DecidableEq, Repr

/-- What a `step` or `run` returns from the state it ends in (R112, R113). -/
def returnOf (s : State) : HostReturn :=
  if s.es = .faulted then .error s.fault else .ok

/-- `reset()` (R251): registers, flags, sp and pc; memory is unchanged (log 14). -/
def hostReset (params : Params) (s : State) : State :=
  { s with
    a := 0x00
    x := 0x00
    y := 0x00
    p := params.pReset
    sp := params.spReset
    pc := s.read16 Config.resetVector
    es := .fetching
    fault := none }

/-- `load(bytes)` (R252): the program to `LOAD_ORIGIN`, then the origin into the reset vector; refused with no
state change where it is too long (R224, log 13). -/
def hostLoad (bytes : List Byte) (s : State) : HostReturn × State :=
  if Config.maxProgramLen < bytes.length then (.programTooLarge bytes.length, s)
  else (.ok, (s.writeBytes Config.loadOrigin bytes).write16 Config.resetVector Config.loadOrigin)

/-- `step()` (R113) with its return value. -/
def hostStep (s : State) : HostReturn × State :=
  match step s with
  | .next t => (returnOf t, t)
  | .fault _ => (.error s.fault, s)
  | .refused r => (.refused r, s)

/-- The loop of `run` (R112), at most `fuel` steps of it. -/
def runLoop : Nat → State → HostReturn × State
  | 0, s => (.notEnded, s)
  | fuel + 1, s =>
    match step s with
    | .next t => if t.es = .halted ∨ t.es = .faulted then (returnOf t, t) else runLoop fuel t
    | .fault _ => (.error s.fault, s)
    | .refused r => (.refused r, s)

/-- `run()` (R112), at most `fuel` steps of it (log 19): from Faulted the recorded error, otherwise it resumes at
`pc`. -/
def hostRun (fuel : Nat) (s : State) : HostReturn × State :=
  if s.es = .faulted then (.error s.fault, s) else runLoop fuel { s with es := .fetching }

/-- `load_and_run(bytes)` (R253). -/
def hostLoadAndRun (params : Params) (fuel : Nat) (bytes : List Byte) (s : State) : HostReturn × State :=
  match hostLoad bytes s with
  | (.ok, t) => hostRun fuel (hostReset params t)
  | (r, t) => (r, t)

/-- What the host may do to the block between steps (R256). It cannot write `es` or `fault`. -/
inductive HostAction where
  | load (bytes : List Byte)
  | reset (params : Params)
  | run (fuel : Nat)
  | step
  | loadAndRun (params : Params) (fuel : Nat) (bytes : List Byte)
  | writeReg (r : Reg) (v : Byte)
  | writeP (v : Byte)
  | writeSp (v : Byte)
  | writePc (v : Addr)
  | writeMem (addr : Addr) (v : Byte)
deriving DecidableEq, Repr

/-- One action of the host: what it returns and the state it leaves. -/
def hostAct (act : HostAction) (s : State) : HostReturn × State :=
  match act with
  | .load bytes => hostLoad bytes s
  | .reset params => (.ok, hostReset params s)
  | .run fuel => hostRun fuel s
  | .step => hostStep s
  | .loadAndRun params fuel bytes => hostLoadAndRun params fuel bytes s
  | .writeReg r v => (.ok, s.setReg r v)
  | .writeP v => (.ok, s.setP v)
  | .writeSp v => (.ok, { s with sp := v })
  | .writePc v => (.ok, s.setPc v)
  | .writeMem addr v => (.ok, s.write addr v)

end Sys2Proof.Machine
end

