-- ==== Sys2Proof/Machine/OpcodeTable.lean ====
section
/-! DEFINITION. The opcode table as data, row by row as `spec/opcode_table.json` has it (R81), and the bytes with no
row or no dispatch. The decoder does not read it: `Obligations.OpcodeBytesSplitThreeWays` holds the two against each
other. The values are the spec's decision D1 (PRESUMED, log 4). -/
namespace Sys2Proof.Machine

/-- A row of the table (R70, R81): `match`, `mnemonic`, `form`, `mode`, `length` and `cycles`. -/
structure TableRow where
  opcode : Byte
  mnemonic : Mnemonic
  form : Form
  mode : Mode
  len : Nat
  cycles : Nat
deriving DecidableEq, Repr

/-- The 151 rows, by opcode byte (R75, R76, R81). -/
def opcodeTable : List TableRow :=
  [⟨0x00, .BRK, .implied, .noMode, 1, 7⟩, ⟨0x01, .ORA, .indirectX, .indirectX, 2, 6⟩,
   ⟨0x05, .ORA, .zeroPage, .zeroPage, 2, 3⟩, ⟨0x06, .ASL, .zeroPage, .zeroPage, 2, 5⟩,
   ⟨0x08, .PHP, .implied, .noMode, 1, 3⟩, ⟨0x09, .ORA, .immediate, .immediate, 2, 2⟩,
   ⟨0x0A, .ASL, .accumulator, .noMode, 1, 2⟩, ⟨0x0D, .ORA, .absolute, .absolute, 3, 4⟩,
   ⟨0x0E, .ASL, .absolute, .absolute, 3, 6⟩, ⟨0x10, .BPL, .relative, .noMode, 2, 2⟩,
   ⟨0x11, .ORA, .indirectY, .indirectY, 2, 5⟩, ⟨0x15, .ORA, .zeroPageX, .zeroPageX, 2, 4⟩,
   ⟨0x16, .ASL, .zeroPageX, .zeroPageX, 2, 6⟩, ⟨0x18, .CLC, .implied, .noMode, 1, 2⟩,
   ⟨0x19, .ORA, .absoluteY, .absoluteY, 3, 4⟩, ⟨0x1D, .ORA, .absoluteX, .absoluteX, 3, 4⟩] ++
  [⟨0x1E, .ASL, .absoluteX, .absoluteX, 3, 7⟩, ⟨0x20, .JSR, .absolute, .absolute, 3, 6⟩,
   ⟨0x21, .AND, .indirectX, .indirectX, 2, 6⟩, ⟨0x24, .BIT, .zeroPage, .zeroPage, 2, 3⟩,
   ⟨0x25, .AND, .zeroPage, .zeroPage, 2, 3⟩, ⟨0x26, .ROL, .zeroPage, .zeroPage, 2, 5⟩,
   ⟨0x28, .PLP, .implied, .noMode, 1, 4⟩, ⟨0x29, .AND, .immediate, .immediate, 2, 2⟩,
   ⟨0x2A, .ROL, .accumulator, .noMode, 1, 2⟩, ⟨0x2C, .BIT, .absolute, .absolute, 3, 4⟩,
   ⟨0x2D, .AND, .absolute, .absolute, 3, 4⟩, ⟨0x2E, .ROL, .absolute, .absolute, 3, 6⟩,
   ⟨0x30, .BMI, .relative, .noMode, 2, 2⟩, ⟨0x31, .AND, .indirectY, .indirectY, 2, 5⟩,
   ⟨0x35, .AND, .zeroPageX, .zeroPageX, 2, 4⟩, ⟨0x36, .ROL, .zeroPageX, .zeroPageX, 2, 6⟩] ++
  [⟨0x38, .SEC, .implied, .noMode, 1, 2⟩, ⟨0x39, .AND, .absoluteY, .absoluteY, 3, 4⟩,
   ⟨0x3D, .AND, .absoluteX, .absoluteX, 3, 4⟩, ⟨0x3E, .ROL, .absoluteX, .absoluteX, 3, 7⟩,
   ⟨0x40, .RTI, .implied, .noMode, 1, 6⟩, ⟨0x41, .EOR, .indirectX, .indirectX, 2, 6⟩,
   ⟨0x45, .EOR, .zeroPage, .zeroPage, 2, 3⟩, ⟨0x46, .LSR, .zeroPage, .zeroPage, 2, 5⟩,
   ⟨0x48, .PHA, .implied, .noMode, 1, 3⟩, ⟨0x49, .EOR, .immediate, .immediate, 2, 2⟩,
   ⟨0x4A, .LSR, .accumulator, .noMode, 1, 2⟩, ⟨0x4C, .JMP, .absolute, .absolute, 3, 3⟩,
   ⟨0x4D, .EOR, .absolute, .absolute, 3, 4⟩, ⟨0x4E, .LSR, .absolute, .absolute, 3, 6⟩,
   ⟨0x50, .BVC, .relative, .noMode, 2, 2⟩, ⟨0x51, .EOR, .indirectY, .indirectY, 2, 5⟩] ++
  [⟨0x55, .EOR, .zeroPageX, .zeroPageX, 2, 4⟩, ⟨0x56, .LSR, .zeroPageX, .zeroPageX, 2, 6⟩,
   ⟨0x58, .CLI, .implied, .noMode, 1, 2⟩, ⟨0x59, .EOR, .absoluteY, .absoluteY, 3, 4⟩,
   ⟨0x5D, .EOR, .absoluteX, .absoluteX, 3, 4⟩, ⟨0x5E, .LSR, .absoluteX, .absoluteX, 3, 7⟩,
   ⟨0x60, .RTS, .implied, .noMode, 1, 6⟩, ⟨0x61, .ADC, .indirectX, .indirectX, 2, 6⟩,
   ⟨0x65, .ADC, .zeroPage, .zeroPage, 2, 3⟩, ⟨0x66, .ROR, .zeroPage, .zeroPage, 2, 5⟩,
   ⟨0x68, .PLA, .implied, .noMode, 1, 4⟩, ⟨0x69, .ADC, .immediate, .immediate, 2, 2⟩,
   ⟨0x6A, .ROR, .accumulator, .noMode, 1, 2⟩, ⟨0x6C, .JMP, .indirect, .noMode, 3, 5⟩,
   ⟨0x6D, .ADC, .absolute, .absolute, 3, 4⟩, ⟨0x6E, .ROR, .absolute, .absolute, 3, 6⟩] ++
  [⟨0x70, .BVS, .relative, .noMode, 2, 2⟩, ⟨0x71, .ADC, .indirectY, .indirectY, 2, 5⟩,
   ⟨0x75, .ADC, .zeroPageX, .zeroPageX, 2, 4⟩, ⟨0x76, .ROR, .zeroPageX, .zeroPageX, 2, 6⟩,
   ⟨0x78, .SEI, .implied, .noMode, 1, 2⟩, ⟨0x79, .ADC, .absoluteY, .absoluteY, 3, 4⟩,
   ⟨0x7D, .ADC, .absoluteX, .absoluteX, 3, 4⟩, ⟨0x7E, .ROR, .absoluteX, .absoluteX, 3, 7⟩,
   ⟨0x81, .STA, .indirectX, .indirectX, 2, 6⟩, ⟨0x84, .STY, .zeroPage, .zeroPage, 2, 3⟩,
   ⟨0x85, .STA, .zeroPage, .zeroPage, 2, 3⟩, ⟨0x86, .STX, .zeroPage, .zeroPage, 2, 3⟩,
   ⟨0x88, .DEY, .implied, .noMode, 1, 2⟩, ⟨0x8A, .TXA, .implied, .noMode, 1, 2⟩,
   ⟨0x8C, .STY, .absolute, .absolute, 3, 4⟩, ⟨0x8D, .STA, .absolute, .absolute, 3, 4⟩] ++
  [⟨0x8E, .STX, .absolute, .absolute, 3, 4⟩, ⟨0x90, .BCC, .relative, .noMode, 2, 2⟩,
   ⟨0x91, .STA, .indirectY, .indirectY, 2, 6⟩, ⟨0x94, .STY, .zeroPageX, .zeroPageX, 2, 4⟩,
   ⟨0x95, .STA, .zeroPageX, .zeroPageX, 2, 4⟩, ⟨0x96, .STX, .zeroPageY, .zeroPageY, 2, 4⟩,
   ⟨0x98, .TYA, .implied, .noMode, 1, 2⟩, ⟨0x99, .STA, .absoluteY, .absoluteY, 3, 5⟩,
   ⟨0x9A, .TXS, .implied, .noMode, 1, 2⟩, ⟨0x9D, .STA, .absoluteX, .absoluteX, 3, 5⟩,
   ⟨0xA0, .LDY, .immediate, .immediate, 2, 2⟩, ⟨0xA1, .LDA, .indirectX, .indirectX, 2, 6⟩,
   ⟨0xA2, .LDX, .immediate, .immediate, 2, 2⟩, ⟨0xA4, .LDY, .zeroPage, .zeroPage, 2, 3⟩,
   ⟨0xA5, .LDA, .zeroPage, .zeroPage, 2, 3⟩, ⟨0xA6, .LDX, .zeroPage, .zeroPage, 2, 3⟩] ++
  [⟨0xA8, .TAY, .implied, .noMode, 1, 2⟩, ⟨0xA9, .LDA, .immediate, .immediate, 2, 2⟩,
   ⟨0xAA, .TAX, .implied, .noMode, 1, 2⟩, ⟨0xAC, .LDY, .absolute, .absolute, 3, 4⟩,
   ⟨0xAD, .LDA, .absolute, .absolute, 3, 4⟩, ⟨0xAE, .LDX, .absolute, .absolute, 3, 4⟩,
   ⟨0xB0, .BCS, .relative, .noMode, 2, 2⟩, ⟨0xB1, .LDA, .indirectY, .indirectY, 2, 5⟩,
   ⟨0xB4, .LDY, .zeroPageX, .zeroPageX, 2, 4⟩, ⟨0xB5, .LDA, .zeroPageX, .zeroPageX, 2, 4⟩,
   ⟨0xB6, .LDX, .zeroPageY, .zeroPageY, 2, 4⟩, ⟨0xB8, .CLV, .implied, .noMode, 1, 2⟩,
   ⟨0xB9, .LDA, .absoluteY, .absoluteY, 3, 4⟩, ⟨0xBA, .TSX, .implied, .noMode, 1, 2⟩,
   ⟨0xBC, .LDY, .absoluteX, .absoluteX, 3, 4⟩, ⟨0xBD, .LDA, .absoluteX, .absoluteX, 3, 4⟩] ++
  [⟨0xBE, .LDX, .absoluteY, .absoluteY, 3, 4⟩, ⟨0xC0, .CPY, .immediate, .immediate, 2, 2⟩,
   ⟨0xC1, .CMP, .indirectX, .indirectX, 2, 6⟩, ⟨0xC4, .CPY, .zeroPage, .zeroPage, 2, 3⟩,
   ⟨0xC5, .CMP, .zeroPage, .zeroPage, 2, 3⟩, ⟨0xC6, .DEC, .zeroPage, .zeroPage, 2, 5⟩,
   ⟨0xC8, .INY, .implied, .noMode, 1, 2⟩, ⟨0xC9, .CMP, .immediate, .immediate, 2, 2⟩,
   ⟨0xCA, .DEX, .implied, .noMode, 1, 2⟩, ⟨0xCC, .CPY, .absolute, .absolute, 3, 4⟩,
   ⟨0xCD, .CMP, .absolute, .absolute, 3, 4⟩, ⟨0xCE, .DEC, .absolute, .absolute, 3, 6⟩,
   ⟨0xD0, .BNE, .relative, .noMode, 2, 2⟩, ⟨0xD1, .CMP, .indirectY, .indirectY, 2, 5⟩,
   ⟨0xD5, .CMP, .zeroPageX, .zeroPageX, 2, 4⟩, ⟨0xD6, .DEC, .zeroPageX, .zeroPageX, 2, 6⟩] ++
  [⟨0xD8, .CLD, .implied, .noMode, 1, 2⟩, ⟨0xD9, .CMP, .absoluteY, .absoluteY, 3, 4⟩,
   ⟨0xDD, .CMP, .absoluteX, .absoluteX, 3, 4⟩, ⟨0xDE, .DEC, .absoluteX, .absoluteX, 3, 7⟩,
   ⟨0xE0, .CPX, .immediate, .immediate, 2, 2⟩, ⟨0xE1, .SBC, .indirectX, .indirectX, 2, 6⟩,
   ⟨0xE4, .CPX, .zeroPage, .zeroPage, 2, 3⟩, ⟨0xE5, .SBC, .zeroPage, .zeroPage, 2, 3⟩,
   ⟨0xE6, .INC, .zeroPage, .zeroPage, 2, 5⟩, ⟨0xE8, .INX, .implied, .noMode, 1, 2⟩,
   ⟨0xE9, .SBC, .immediate, .immediate, 2, 2⟩, ⟨0xEA, .NOP, .implied, .noMode, 1, 2⟩,
   ⟨0xEC, .CPX, .absolute, .absolute, 3, 4⟩, ⟨0xED, .SBC, .absolute, .absolute, 3, 4⟩,
   ⟨0xEE, .INC, .absolute, .absolute, 3, 6⟩, ⟨0xF0, .BEQ, .relative, .noMode, 2, 2⟩] ++
  [⟨0xF1, .SBC, .indirectY, .indirectY, 2, 5⟩, ⟨0xF5, .SBC, .zeroPageX, .zeroPageX, 2, 4⟩,
   ⟨0xF6, .INC, .zeroPageX, .zeroPageX, 2, 6⟩, ⟨0xF8, .SED, .implied, .noMode, 1, 2⟩,
   ⟨0xF9, .SBC, .absoluteY, .absoluteY, 3, 4⟩, ⟨0xFD, .SBC, .absoluteX, .absoluteX, 3, 4⟩,
   ⟨0xFE, .INC, .absoluteX, .absoluteX, 3, 7⟩]

/-- What an instruction's descriptor says, as a row of the table (R70, R72). -/
def rowOf (i : Instr) : TableRow :=
  ⟨i.descriptor.opcode, i.mnemonic, i.descriptor.form, i.descriptor.mode, i.len, i.descriptor.cycles⟩

/-- The 105 bytes of rule R77, absent from the opcode table. -/
def absentBytes : List Byte :=
  [0x02, 0x03, 0x04, 0x07, 0x0B, 0x0C, 0x0F, 0x12, 0x13, 0x14, 0x17, 0x1A, 0x1B, 0x1C, 0x1F, 0x22] ++
  [0x23, 0x27, 0x2B, 0x2F, 0x32, 0x33, 0x34, 0x37, 0x3A, 0x3B, 0x3C, 0x3F, 0x42, 0x43, 0x44, 0x47] ++
  [0x4B, 0x4F, 0x52, 0x53, 0x54, 0x57, 0x5A, 0x5B, 0x5C, 0x5F, 0x62, 0x63, 0x64, 0x67, 0x6B, 0x6F] ++
  [0x72, 0x73, 0x74, 0x77, 0x7A, 0x7B, 0x7C, 0x7F, 0x80, 0x82, 0x83, 0x87, 0x89, 0x8B, 0x8F, 0x92] ++
  [0x93, 0x97, 0x9B, 0x9C, 0x9E, 0x9F, 0xA3, 0xA7, 0xAB, 0xAF, 0xB2, 0xB3, 0xB7, 0xBB, 0xBF, 0xC2] ++
  [0xC3, 0xC7, 0xCB, 0xCF, 0xD2, 0xD3, 0xD4, 0xD7, 0xDA, 0xDB, 0xDC, 0xDF, 0xE2, 0xE3, 0xE7, 0xEB] ++
  [0xEF, 0xF2, 0xF3, 0xF4, 0xF7, 0xFA, 0xFB, 0xFC, 0xFF]

/-- The 38 bytes of rules R76 and R222, in the table but not dispatched. -/
def undispatchedBytes : List Byte :=
  [0x08, 0x18, 0x20, 0x28, 0x38, 0x40, 0x48, 0x4C, 0x58, 0x60, 0x68, 0x6C, 0x78, 0x88, 0x9A, 0xB8] ++
  [0xBA, 0xC0, 0xC1, 0xC4, 0xC5, 0xC6, 0xC9, 0xCA, 0xCC, 0xCD, 0xCE, 0xD1, 0xD5, 0xD6, 0xD8, 0xD9] ++
  [0xDD, 0xDE, 0xE0, 0xE4, 0xEC, 0xF8]

end Sys2Proof.Machine
end

