-- ==== Sys2Proof/Safety.lean ====
section
/-! DEFINITION. What holds of a state between steps, what a safe run is, and the words the statements use. -/
namespace Sys2Proof.Machine

/-- What the spec says of every state between steps: memory in its canonical form; Dispatching is not seen and
nothing is in flight (R32, R34, R107); `fault` is not none exactly when `es` = Faulted (R33). -/
structure State.Inv (s : State) : Prop where
  memory : Memory.wf s.mem = true
  between : s.es ≠ .dispatching
  idle : s.inFlight = none
  recorded : s.fault.isSome = true ↔ s.es = .faulted

/-- A run of up to `n` steps that ends in no error. -/
def SafeRun (n : Nat) (s : State) : Prop :=
  ∀ k ≤ n, ∃ t, Sys2Proof.core.run k s = .next t ∧ t.es ≠ .faulted

/-- The ZN update by its effect (R108): Z iff the value is 0x00, N its bit 7, every other flag as before. -/
structure ZnUpdate (v p p' : Byte) : Prop where
  zero : getFlag p' .Z = decide (v = 0)
  negative : getFlag p' .N = v.getLsbD 7
  others : ∀ f, f ≠ .Z → f ≠ .N → getFlag p' f = getFlag p f

/-- A memory that differs from another at most at one address, which holds `v` (R42). -/
def StoredAt (ea : Addr) (v : Byte) (mem mem' : Memory) : Prop :=
  ∀ b : Addr, Memory.read mem' b.toNat = if b = ea then v else Memory.read mem b.toNat

/-- The state in which a fetched and decoded instruction runs (R101, R102): `pc` one past the opcode, Dispatching,
and in flight the opcode's address and byte, the descriptor, and `pc_d`. -/
def State.dispatched (s : State) (i : Instr) : State :=
  { s with
    pc := s.pc + 1
    es := .dispatching
    inFlight := some ⟨s.pc, s.read s.pc, some ⟨i.descriptor, s.pc + 1⟩⟩ }

end Sys2Proof.Machine
end

