-- ==== Sys2Proof/Certificates/Slice0/Obligations.lean ====
section
/-! DEFINITION. The statements for the provers. Operands are read through `Operand.ea` and `Operand.value`, which
`Obligations.ResolveGivesEffectiveAddress` and `Obligations.DecodedOperandIsResolved` tie to the spec's Resolve. -/
open Sys2Proof Sys2Proof.Machine

/-- For every value of the OPEN parameters, the constructed state has A = X = Y = 0x00, P = P_RESET, sp = SP_RESET,
pc = 0x0000, every memory byte 0x00, es = Fetching, no fault and nothing in flight. pc, es and fault rest on the
spec's decisions D8 and D13 (log 6). [R36, R250, 92_eei_decisions.md D6, D7, D8] -/
def Obligations.ConstructSetsEveryField : Prop :=
  ∀ params : Params,
    let s := State.construct params
    s.a = 0x00 ∧ s.x = 0x00 ∧ s.y = 0x00 ∧ s.p = params.pReset ∧ s.sp = params.spReset ∧ s.pc = 0x0000 ∧
    (∀ addr : Addr, s.read addr = 0x00) ∧ s.es = .fetching ∧ s.fault = none ∧ s.inFlight = none

/-- For every state and every P_RESET and SP_RESET, reset() gives A = X = Y = 0x00, P = P_RESET, sp = SP_RESET, es =
Fetching, no fault, pc = 256 * mem[0xFFFD] + mem[0xFFFC], and the memory it had. That reset writes sp and clears
fault are the spec's decisions D18 and D16 (log 14). [R251, 92_eei_decisions.md D16, D18] -/
def Obligations.ResetReinitialisesFromVector : Prop :=
  ∀ (params : Params) (s : State),
    let t := hostReset params s
    t.a = 0x00 ∧ t.x = 0x00 ∧ t.y = 0x00 ∧ t.p = params.pReset ∧ t.sp = params.spReset ∧
    t.es = .fetching ∧ t.fault = none ∧
    t.pc.toNat = 256 * (s.read 0xFFFD).toNat + (s.read 0xFFFC).toNat ∧ t.mem = s.mem

/-- Model's choice (log 1, 2, 6): State.reset is reset() of the state at construction, both with the default
parameters; and for every value of the parameters reset() of the constructed state is that state again.
[70_reset_and_hazards.md R250, R251, 92_eei_decisions.md D6, D7, D8] -/
def Obligations.ResetStateIsResetOfConstructed : Prop :=
  State.reset = hostReset Config.defaultParams (State.construct Config.defaultParams) ∧
  ∀ params : Params, hostReset params (State.construct params) = State.construct params

/-- State.reset, and the constructed state for every value of the OPEN parameters, meet the invariant: memory in
canonical form, es not Dispatching, nothing in flight, fault not none exactly when es = Faulted. [R33, R107,
10_state.md section 6] -/
def Obligations.InvariantHoldsAtReset : Prop :=
  State.reset.Inv ∧ ∀ params : Params, (State.construct params).Inv

/-- For every state that meets the invariant (memory in canonical form, es not Dispatching, nothing in flight, fault
not none exactly when es = Faulted), whatever the bytes at pc are, if step answers a next state then that state
meets it too. [R33, R107, R32, R34] -/
def Obligations.StepKeepsInvariant : Prop :=
  ∀ s t : State, s.Inv → step s = .next t → t.Inv

/-- Every action of the host (load, reset, run for any number of steps, step, load_and_run, and a write of a
register, P, sp, pc or a memory byte) takes a state that meets the invariant to one that does. [R33, R256, R112,
R252, R251] -/
def Obligations.HostActionsKeepInvariant : Prop :=
  ∀ (act : HostAction) (s : State), s.Inv → (hostAct act s).2.Inv

/-- In Fetching, when the three bytes at pc decode to i, exec i answers a next state t from the state with pc one
past the opcode, es = Dispatching and the opcode address, opcode, descriptor and pc_d held; step answers t with
this added: still Dispatching, pc goes to pc_op + len when the rule left pc alone, and es to Fetching; a halt or
an error gets no advance; nothing stays in flight. The test by value is the spec's decision D12 (log 10). [R101,
R102, R103, R104, R105, 92_eei_decisions.md D12] -/
def Obligations.StepRunsDecodedInstruction : Prop :=
  ∀ (s : State) (i : Instr), s.es = .fetching →
    decodeBytes (s.read s.pc) (s.read (s.pc + 1)) (s.read (s.pc + 2)) = some i →
    ∃ t, exec i (s.dispatched i) = .next t ∧ step s = .next
      { t with
        pc := if t.es = .dispatching ∧ t.pc = s.pc + 1 then s.pc + BitVec.ofNat 16 i.len else t.pc
        es := if t.es = .dispatching then .fetching else t.es
        inFlight := none }

/-- For every well-formed instruction of all 151 rows, with every operand, and whatever bytes follow, decoding its
encoding followed by those bytes gives the instruction and those bytes. The byte values are the spec's decision
D1 (log 4). [R70, R71, R73, R74, 92_eei_decisions.md D1] -/
def Obligations.DecodeOfEncodeIsInstruction : Prop :=
  ∀ (i : Instr) (rest : List Byte), i.WellFormed = true → decode (encode i ++ rest) = .ok (i, rest)

/-- Whenever a byte sequence decodes to an instruction and a rest, the instruction is well formed and the sequence
is its encoding followed by that rest: no byte sequence decodes to an instruction it does not encode. [R70, R71,
R73, 92_eei_decisions.md D1] -/
def Obligations.DecodedBytesAreEncoding : Prop :=
  ∀ (bytes : List Byte) (i : Instr) (rest : List Byte), decode bytes = .ok (i, rest) →
    i.WellFormed = true ∧ encode i ++ rest = bytes

/-- Words written out from the spec's encodings decode as they should: LDA #$80, STA $0200, TAX, INC $1234,X, INY,
AND ($20),Y, ORA $10, EOR $FF,X, ADC ($FF,X), SBC $3412,Y, ASL A, ROR $1234, BIT $10, BNE -7, NOP, BRK and the
unimplemented JMP ($1234). All byte values but 0xA9, 0xEA and 0x00 are the spec's decision D1 (log 4).
[30_encoding.md R75, R76, 92_eei_decisions.md D1] -/
def Obligations.WrittenOutWordsDecode : Prop :=
  decodeBytes 0xA9 0x80 0x00 = some (.ldaImm 0x80) ∧
  decodeBytes 0x8D 0x00 0x02 = some (.staAbs 0x0200) ∧
  decodeBytes 0xAA 0x00 0x00 = some .tax ∧
  decodeBytes 0xFE 0x34 0x12 = some (.incAbsX 0x1234) ∧
  decodeBytes 0xC8 0x00 0x00 = some .iny ∧
  decodeBytes 0x31 0x20 0x00 = some (.andIndY 0x20) ∧
  decodeBytes 0x05 0x10 0x00 = some (.oraZp 0x10) ∧
  decodeBytes 0x55 0xFF 0x00 = some (.eorZpX 0xFF) ∧
  decodeBytes 0x61 0xFF 0x00 = some (.adcIndX 0xFF) ∧
  decodeBytes 0xF9 0x12 0x34 = some (.sbcAbsY 0x3412) ∧
  decodeBytes 0x0A 0x00 0x00 = some .aslA ∧
  decodeBytes 0x6E 0x34 0x12 = some (.rorAbs 0x1234) ∧
  decodeBytes 0x24 0x10 0x00 = some (.bitZp 0x10) ∧
  decodeBytes 0xD0 0xF9 0x00 = some (.bne (-7)) ∧
  decodeBytes 0xEA 0x00 0x00 = some .nop ∧
  decodeBytes 0x00 0x00 0x00 = some .brk ∧
  decodeBytes 0x6C 0x34 0x12 = some (.jmpInd 0x1234)

/-- For every opcode byte and whatever follows it: it decodes to nothing exactly when it is one of the 105 bytes of
R77; what it decodes to has that opcode byte in its descriptor; and that instruction's mnemonic is outside the
33 dispatched ones exactly when the byte is one of the 38 bytes of R76; and the mnemonic, form, mode tag, length
and cycle count of what it decodes to are those of the byte's row of the opcode table, written out row by row in
opcodeTable, a byte with no row decoding to nothing. The table and the split are the spec's decision D1 and D2
(log 4). [R70, R72, R75, R76, R77, R79, R81, 92_eei_decisions.md D1, D2, D22] -/
def Obligations.OpcodeBytesSplitThreeWays : Prop :=
  ∀ op b1 b2 : Byte,
    (decodeBytes op b1 b2 = none ↔ op ∈ absentBytes) ∧
    (∀ i, decodeBytes op b1 b2 = some i →
      i.descriptor.opcode = op ∧ (i.mnemonic.dispatched = false ↔ op ∈ undispatchedBytes)) ∧
    (decodeBytes op b1 b2).map rowOf = opcodeTable.find? (fun row => row.opcode == op)

/-- In Fetching with one of the 105 absent bytes at pc, step answers the next state in which pc is pc_op + 1, es =
Faulted, the fault record is (UnrecognizedOpcode, pc_op, the byte), nothing is in flight, and A, X, Y, sp, P and
memory are as before. The record and pc rest on decisions D13 and D15 (log 11). [R102, R221, R225,
92_eei_decisions.md D2, D13, D15] -/
def Obligations.AbsentOpcodeFaultsPrecisely : Prop :=
  ∀ s : State, s.es = .fetching → s.read s.pc ∈ absentBytes →
    step s = .next
      { s with
        pc := s.pc + 1
        es := .faulted
        fault := some ⟨.unrecognizedOpcode, s.pc, s.read s.pc⟩
        inFlight := none }

/-- For every instruction whose mnemonic is not one of the 33 (CMP, CPX, CPY, DEC, DEX, DEY, JMP, JSR, RTS, RTI,
PHA, PHP, PLA, PLP, CLC, CLD, CLI, CLV, SEC, SED, SEI, TSX, TXS; all 38 constructors), with whatever operand
bytes, exec with an instruction in flight answers the next state with fault record (UnimplementedOpcode, pc_op,
op) and es = Faulted, everything else unchanged. [R103, R222, R225, 92_eei_decisions.md D3, D4, D13] -/
def Obligations.UndispatchedInstructionRaises : Prop :=
  ∀ (i : Instr) (s : State) (c : InFlight), i.mnemonic.dispatched = false → s.inFlight = some c →
    exec i s = .next { s with es := .faulted, fault := some ⟨.unimplementedOpcode, c.pcOp, c.op⟩ }

/-- In Fetching with one of the 38 undispatched bytes at pc, step answers the next state in which pc is pc_op + 1
(no advance), es = Faulted, the fault record is (UnimplementedOpcode, pc_op, the byte), nothing is in flight,
and all else is as before. It rests on decisions D2, D13 and D15 (log 4, 11). [R103, R222, R225,
92_eei_decisions.md D2, D13, D15] -/
def Obligations.UndispatchedOpcodeFaultsPrecisely : Prop :=
  ∀ s : State, s.es = .fetching → s.read s.pc ∈ undispatchedBytes →
    step s = .next
      { s with
        pc := s.pc + 1
        es := .faulted
        fault := some ⟨.unimplementedOpcode, s.pc, s.read s.pc⟩
        inFlight := none }

/-- Whenever a step from Fetching ends in Faulted, its state is the state before with pc = pc_op + 1, es = Faulted,
nothing in flight and a fault record of the opcode's address and byte whose code is UnrecognizedOpcode when the
byte is absent and UnimplementedOpcode when it is in the table; A, X, Y, sp, P and memory are unchanged.
InvalidAddressingMode is never raised. [R225, R227, R223, 92_eei_decisions.md D14, D15] -/
def Obligations.FaultedStepChangesNothingElse : Prop :=
  ∀ s t : State, s.es = .fetching → step s = .next t → t.es = .faulted →
    t =
      { s with
        pc := s.pc + 1
        es := .faulted
        fault := some ⟨if s.read s.pc ∈ absentBytes then .unrecognizedOpcode else .unimplementedOpcode,
          s.pc, s.read s.pc⟩
        inFlight := none }

/-- In Halted, step answers the same state, and the host's step() returns Ok and leaves it. In Faulted, step answers
the fault that carries the record, and the host's step() and run() return that error and leave the state. It
rests on decision D16; the mapping onto the outcomes is the model's (log 12). [R106, R113, R226,
92_eei_decisions.md D16] -/
def Obligations.StoppedEngineRunsNothing : Prop :=
  ∀ s : State,
    (s.es = .halted → step s = .next s ∧ hostStep s = (.ok, s)) ∧
    (s.es = .faulted → step s = .fault (.engineFaulted s.fault) ∧ hostStep s = (.error s.fault, s) ∧
      ∀ fuel, hostRun fuel s = (.error s.fault, s))

/-- For every state that is not Faulted, whatever the bytes at pc, step answers a next state: no byte sequence is
refused and none stops the machine without a state. That a step that raises an error, and a step in Halted or in
Dispatching, answers a next state is the model's mapping onto the outcomes (log 11, 12). [R101, R103, R106,
R113, 92_eei_decisions.md D13, D16] -/
def Obligations.StepAnswersNextUnlessFaulted : Prop :=
  ∀ s : State, s.es ≠ .faulted → ∃ t, step s = .next t

/-- For every step from Fetching that answers a next state: the engine is Halted after it exactly when the opcode
byte fetched is 0x00. [R105, R211, 46_branches.md R204] -/
def Obligations.OnlyZeroOpcodeHalts : Prop :=
  ∀ s t : State, s.es = .fetching → step s = .next t → (t.es = .halted ↔ s.read s.pc = 0x00)

/-- LDA, LDX and LDY in every form: their opcode bytes decode to their forms; the operand has a byte m
(Operand.value, the byte at Resolve's address); exec completes, in every state, with the register = m, Z = (m ==
0), N = m[7]. Everything else, every memory byte and every other flag among it, is unchanged. The opcode bytes
are the spec's decision D1 (log 4). [R120, R121, R122, R111, 41_loads_stores_transfers.md section 1] -/
def Obligations.LoadsSetRegisterAndZn : Prop :=
  (∀ b1 b2 : Byte,
    decodeBytes 0xA9 b1 b2 = some (.ldaImm b1) ∧
    decodeBytes 0xA5 b1 b2 = some (.ldaZp b1) ∧
    decodeBytes 0xB5 b1 b2 = some (.ldaZpX b1) ∧
    decodeBytes 0xAD b1 b2 = some (.ldaAbs (word16 b2 b1)) ∧
    decodeBytes 0xBD b1 b2 = some (.ldaAbsX (word16 b2 b1)) ∧
    decodeBytes 0xB9 b1 b2 = some (.ldaAbsY (word16 b2 b1)) ∧
    decodeBytes 0xA1 b1 b2 = some (.ldaIndX b1) ∧
    decodeBytes 0xB1 b1 b2 = some (.ldaIndY b1) ∧
    decodeBytes 0xA2 b1 b2 = some (.ldxImm b1) ∧
    decodeBytes 0xA6 b1 b2 = some (.ldxZp b1) ∧
    decodeBytes 0xB6 b1 b2 = some (.ldxZpY b1) ∧
    decodeBytes 0xAE b1 b2 = some (.ldxAbs (word16 b2 b1)) ∧
    decodeBytes 0xBE b1 b2 = some (.ldxAbsY (word16 b2 b1)) ∧
    decodeBytes 0xA0 b1 b2 = some (.ldyImm b1) ∧
    decodeBytes 0xA4 b1 b2 = some (.ldyZp b1) ∧
    decodeBytes 0xB4 b1 b2 = some (.ldyZpX b1) ∧
    decodeBytes 0xAC b1 b2 = some (.ldyAbs (word16 b2 b1)) ∧
    decodeBytes 0xBC b1 b2 = some (.ldyAbsX (word16 b2 b1))) ∧
  ∀ (i : Instr) (s : State), i.mnemonic ∈ [.LDA, .LDX, .LDY] →
    ∃ m p', Operand.value i.operand s = some m ∧ ZnUpdate m s.p p' ∧
      (i.mnemonic = .LDA → exec i s = .next { s with a := m, p := p' }) ∧
      (i.mnemonic = .LDX → exec i s = .next { s with x := m, p := p' }) ∧
      (i.mnemonic = .LDY → exec i s = .next { s with y := m, p := p' })

/-- STA, STX and STY in every form: their opcode bytes decode to their forms; the operand has an effective address
ea (Operand.ea, Resolve's); exec completes, in every state, and changes memory alone: the byte at ea reads as
the register, every other address reads as before. No flag, register, pc or sp changes. The opcode bytes are the
spec's decision D1 (log 4). [R123, R124, R125, R111, R47] -/
def Obligations.StoresWriteOneByte : Prop :=
  (∀ b1 b2 : Byte,
    decodeBytes 0x85 b1 b2 = some (.staZp b1) ∧
    decodeBytes 0x95 b1 b2 = some (.staZpX b1) ∧
    decodeBytes 0x8D b1 b2 = some (.staAbs (word16 b2 b1)) ∧
    decodeBytes 0x9D b1 b2 = some (.staAbsX (word16 b2 b1)) ∧
    decodeBytes 0x99 b1 b2 = some (.staAbsY (word16 b2 b1)) ∧
    decodeBytes 0x81 b1 b2 = some (.staIndX b1) ∧
    decodeBytes 0x91 b1 b2 = some (.staIndY b1) ∧
    decodeBytes 0x86 b1 b2 = some (.stxZp b1) ∧
    decodeBytes 0x96 b1 b2 = some (.stxZpY b1) ∧
    decodeBytes 0x8E b1 b2 = some (.stxAbs (word16 b2 b1)) ∧
    decodeBytes 0x84 b1 b2 = some (.styZp b1) ∧
    decodeBytes 0x94 b1 b2 = some (.styZpX b1) ∧
    decodeBytes 0x8C b1 b2 = some (.styAbs (word16 b2 b1))) ∧
  ∀ (i : Instr) (s : State), i.mnemonic ∈ [.STA, .STX, .STY] →
    ∃ ea mem', Operand.ea i.operand s = some ea ∧ exec i s = .next { s with mem := mem' } ∧
      (i.mnemonic = .STA → StoredAt ea s.a s.mem mem') ∧
      (i.mnemonic = .STX → StoredAt ea s.x s.mem mem') ∧
      (i.mnemonic = .STY → StoredAt ea s.y s.mem mem')

/-- TAX, TXA, TAY and TYA: opcode bytes 0xAA, 0x8A, 0xA8 and 0x98; exec completes, in every state, with the
destination = the source, Z = (value == 0), N = its bit 7. Everything else, every memory byte and every other
flag among it, is unchanged. The opcode bytes are the spec's decision D1 (log 4). [R126, R127, R128, R129,
41_loads_stores_transfers.md section 3] -/
def Obligations.TransfersCopyRegister : Prop :=
  (∀ b1 b2 : Byte,
    decodeBytes 0xAA b1 b2 = some .tax ∧
    decodeBytes 0x8A b1 b2 = some .txa ∧
    decodeBytes 0xA8 b1 b2 = some .tay ∧
    decodeBytes 0x98 b1 b2 = some .tya) ∧
  ∀ s : State,
    (∃ p', ZnUpdate s.a s.p p' ∧ exec .tax s = .next { s with x := s.a, p := p' }) ∧
    (∃ p', ZnUpdate s.x s.p p' ∧ exec .txa s = .next { s with a := s.x, p := p' }) ∧
    (∃ p', ZnUpdate s.a s.p p' ∧ exec .tay s = .next { s with y := s.a, p := p' }) ∧
    (∃ p', ZnUpdate s.y s.p p' ∧ exec .tya s = .next { s with a := s.y, p := p' })

/-- INC in every form: its opcode bytes decode to its forms; the operand has an effective address ea; exec
completes, in every state, with the byte at ea = (old byte + 1) mod 256, Z and N from the new byte, every other
address reading as before, C and V and all else unchanged. The opcode bytes are the spec's decision D1 (log 4).
[R140, R111, R47] -/
def Obligations.IncrementMemoryWritesBack : Prop :=
  (∀ b1 b2 : Byte,
    decodeBytes 0xE6 b1 b2 = some (.incZp b1) ∧
    decodeBytes 0xF6 b1 b2 = some (.incZpX b1) ∧
    decodeBytes 0xEE b1 b2 = some (.incAbs (word16 b2 b1)) ∧
    decodeBytes 0xFE b1 b2 = some (.incAbsX (word16 b2 b1))) ∧
  ∀ (i : Instr) (s : State), i.mnemonic = .INC →
    ∃ ea r mem' p', Operand.ea i.operand s = some ea ∧ r.toNat = ((s.read ea).toNat + 1) % 256 ∧
      StoredAt ea r s.mem mem' ∧ ZnUpdate r s.p p' ∧ exec i s = .next { s with mem := mem', p := p' }

/-- INX and INY: opcode bytes 0xE8 and 0xC8; exec completes, in every state, with the register = (old + 1) mod 256
committed and Z and N from the new value. Everything else, every memory byte and every other flag among it, is
unchanged. The opcode bytes are the spec's decision D1 (log 4). [R141, R142, 90_conflicts.md C1] -/
def Obligations.IncrementRegisterCommits : Prop :=
  (∀ b1 b2 : Byte,
    decodeBytes 0xE8 b1 b2 = some .inx ∧
    decodeBytes 0xC8 b1 b2 = some .iny) ∧
  ∀ s : State,
    (∃ r p', r.toNat = (s.x.toNat + 1) % 256 ∧ ZnUpdate r s.p p' ∧ exec .inx s = .next { s with x := r, p := p' }) ∧
    (∃ r p', r.toNat = (s.y.toNat + 1) % 256 ∧ ZnUpdate r s.p p' ∧ exec .iny s = .next { s with y := r, p := p' })

/-- AND, ORA and EOR in every form: their opcode bytes decode to their forms; the operand has a byte m; exec
completes, in every state, with A = r where each bit of r is the and, or, exclusive or of that bit of A and of
m, and Z and N from r. Everything else, every memory byte and every other flag among it, is unchanged. The
opcode bytes are the spec's decision D1 (log 4). [R150, R151, R152, R111, 43_bitwise_arithmetic.md section 1] -/
def Obligations.BitwiseCombineIntoAccumulator : Prop :=
  (∀ b1 b2 : Byte,
    decodeBytes 0x29 b1 b2 = some (.andImm b1) ∧
    decodeBytes 0x25 b1 b2 = some (.andZp b1) ∧
    decodeBytes 0x35 b1 b2 = some (.andZpX b1) ∧
    decodeBytes 0x2D b1 b2 = some (.andAbs (word16 b2 b1)) ∧
    decodeBytes 0x3D b1 b2 = some (.andAbsX (word16 b2 b1)) ∧
    decodeBytes 0x39 b1 b2 = some (.andAbsY (word16 b2 b1)) ∧
    decodeBytes 0x21 b1 b2 = some (.andIndX b1) ∧
    decodeBytes 0x31 b1 b2 = some (.andIndY b1) ∧
    decodeBytes 0x09 b1 b2 = some (.oraImm b1) ∧
    decodeBytes 0x05 b1 b2 = some (.oraZp b1) ∧
    decodeBytes 0x15 b1 b2 = some (.oraZpX b1) ∧
    decodeBytes 0x0D b1 b2 = some (.oraAbs (word16 b2 b1)) ∧
    decodeBytes 0x1D b1 b2 = some (.oraAbsX (word16 b2 b1)) ∧
    decodeBytes 0x19 b1 b2 = some (.oraAbsY (word16 b2 b1)) ∧
    decodeBytes 0x01 b1 b2 = some (.oraIndX b1) ∧
    decodeBytes 0x11 b1 b2 = some (.oraIndY b1) ∧
    decodeBytes 0x49 b1 b2 = some (.eorImm b1) ∧
    decodeBytes 0x45 b1 b2 = some (.eorZp b1) ∧
    decodeBytes 0x55 b1 b2 = some (.eorZpX b1) ∧
    decodeBytes 0x4D b1 b2 = some (.eorAbs (word16 b2 b1)) ∧
    decodeBytes 0x5D b1 b2 = some (.eorAbsX (word16 b2 b1)) ∧
    decodeBytes 0x59 b1 b2 = some (.eorAbsY (word16 b2 b1)) ∧
    decodeBytes 0x41 b1 b2 = some (.eorIndX b1) ∧
    decodeBytes 0x51 b1 b2 = some (.eorIndY b1)) ∧
  ∀ (i : Instr) (s : State), i.mnemonic ∈ [.AND, .ORA, .EOR] →
    ∃ m r p', Operand.value i.operand s = some m ∧ ZnUpdate r s.p p' ∧ exec i s = .next { s with a := r, p := p' } ∧
      (i.mnemonic = .AND → ∀ k, r.getLsbD k = (s.a.getLsbD k && m.getLsbD k)) ∧
      (i.mnemonic = .ORA → ∀ k, r.getLsbD k = (s.a.getLsbD k || m.getLsbD k)) ∧
      (i.mnemonic = .EOR → ∀ k, r.getLsbD k = (s.a.getLsbD k != m.getLsbD k))

/-- ADC in every form: its opcode bytes decode to its forms; the operand has a byte m; exec completes, in every
state, with A = r = (A + m + C) mod 256, C = (A + m + C >= 256), V = ((A ^ r) & (m ^ r))[7], Z and N from r,
written 1 or 0 either way, I, D, B, B2 and all else unchanged. That C and V are cleared too is decision D11 (log
9). The opcode bytes are the spec's decision D1 (log 4). [R153, R110, R111, 92_eei_decisions.md D11] -/
def Obligations.AdcAddsWithCarry : Prop :=
  (∀ b1 b2 : Byte,
    decodeBytes 0x69 b1 b2 = some (.adcImm b1) ∧
    decodeBytes 0x65 b1 b2 = some (.adcZp b1) ∧
    decodeBytes 0x75 b1 b2 = some (.adcZpX b1) ∧
    decodeBytes 0x6D b1 b2 = some (.adcAbs (word16 b2 b1)) ∧
    decodeBytes 0x7D b1 b2 = some (.adcAbsX (word16 b2 b1)) ∧
    decodeBytes 0x79 b1 b2 = some (.adcAbsY (word16 b2 b1)) ∧
    decodeBytes 0x61 b1 b2 = some (.adcIndX b1) ∧
    decodeBytes 0x71 b1 b2 = some (.adcIndY b1)) ∧
  ∀ (i : Instr) (s : State), i.mnemonic = .ADC →
    ∃ m r p', Operand.value i.operand s = some m ∧ exec i s = .next { s with a := r, p := p' } ∧
      r.toNat = (s.a.toNat + m.toNat + (getFlag s.p .C).toNat) % 256 ∧
      getFlag p' .C = decide (256 ≤ s.a.toNat + m.toNat + (getFlag s.p .C).toNat) ∧
      getFlag p' .V = ((s.a ^^^ r) &&& (m ^^^ r)).getLsbD 7 ∧
      getFlag p' .Z = decide (r = 0) ∧ getFlag p' .N = r.getLsbD 7 ∧
      ∀ f ∈ [Flag.I, .D, .B, .B2], getFlag p' f = getFlag s.p f

/-- SBC in every form: its opcode bytes decode to its forms; the operand has a byte m, whose negation is n = (256 -
m) mod 256; exec completes, in every state, with A = r = (A + n + C) mod 256, C = (A + n + C >= 256), V = ((A ^
r) & (n ^ r))[7], Z and N from r, I, D, B, B2 and all else unchanged; and with C = 0 on entry r is A - m, C out
1 exactly when m is not 0 and A >= m. The 8-bit width of the negation is decision D10, the clearing of C and V
D11 (log 8, 9). The opcode bytes are the spec's decision D1 (log 4). [R154, R110, R111, 90_conflicts.md C8,
92_eei_decisions.md D10, D11] -/
def Obligations.SbcAddsNegatedOperand : Prop :=
  (∀ b1 b2 : Byte,
    decodeBytes 0xE9 b1 b2 = some (.sbcImm b1) ∧
    decodeBytes 0xE5 b1 b2 = some (.sbcZp b1) ∧
    decodeBytes 0xF5 b1 b2 = some (.sbcZpX b1) ∧
    decodeBytes 0xED b1 b2 = some (.sbcAbs (word16 b2 b1)) ∧
    decodeBytes 0xFD b1 b2 = some (.sbcAbsX (word16 b2 b1)) ∧
    decodeBytes 0xF9 b1 b2 = some (.sbcAbsY (word16 b2 b1)) ∧
    decodeBytes 0xE1 b1 b2 = some (.sbcIndX b1) ∧
    decodeBytes 0xF1 b1 b2 = some (.sbcIndY b1)) ∧
  ∀ (i : Instr) (s : State), i.mnemonic = .SBC →
    ∃ m n r p', Operand.value i.operand s = some m ∧ exec i s = .next { s with a := r, p := p' } ∧
      n.toNat = (256 - m.toNat) % 256 ∧
      r.toNat = (s.a.toNat + n.toNat + (getFlag s.p .C).toNat) % 256 ∧
      getFlag p' .C = decide (256 ≤ s.a.toNat + n.toNat + (getFlag s.p .C).toNat) ∧
      getFlag p' .V = ((s.a ^^^ r) &&& (n ^^^ r)).getLsbD 7 ∧
      getFlag p' .Z = decide (r = 0) ∧ getFlag p' .N = r.getLsbD 7 ∧
      (∀ f ∈ [Flag.I, .D, .B, .B2], getFlag p' f = getFlag s.p f) ∧
      (getFlag s.p .C = false → r = s.a - m ∧ (getFlag p' .C = true ↔ m ≠ 0 ∧ m.toNat ≤ s.a.toNat))

/-- For every A, m and carry in: the adder's overflow flag is 1 exactly when the signed sum sext(A) + sext(m) + C
lies outside -128 to 127. The law is marked by the spec as derived from the pseudocode. [40_dispatch.md R110] -/
def Obligations.OverflowIsSignedOverflow : Prop :=
  ∀ (a m : Byte) (c : Bool),
    addOverflow a m c = true ↔ a.toInt + m.toInt + c.toNat < -128 ∨ 127 < a.toInt + m.toInt + c.toNat

/-- The accumulator forms: opcode bytes 0x0A, 0x4A, 0x2A, 0x6A; exec completes, in every state, with A = r: ASL and
ROL shift left, bit 0 of r being 0 or the old C; LSR and ROR shift right, bit 7 of r being 0 or the old C; C is
the bit shifted out (old bit 7 or bit 0), Z and N from r, V and all else unchanged. The opcode bytes are the
spec's decision D1 (log 4). [R170, R172, R174, R176, 40_dispatch.md R109] -/
def Obligations.AccumulatorShiftsMoveOneBit : Prop :=
  (∀ b1 b2 : Byte,
    decodeBytes 0x0A b1 b2 = some .aslA ∧
    decodeBytes 0x4A b1 b2 = some .lsrA ∧
    decodeBytes 0x2A b1 b2 = some .rolA ∧
    decodeBytes 0x6A b1 b2 = some .rorA) ∧
  ∀ (i : Instr) (s : State), i ∈ [Instr.aslA, .lsrA, .rolA, .rorA] →
    ∃ r p', exec i s = .next { s with a := r, p := p' } ∧
      getFlag p' .Z = decide (r = 0) ∧ getFlag p' .N = r.getLsbD 7 ∧
      (∀ f, f ∉ [Flag.C, .Z, .N] → getFlag p' f = getFlag s.p f) ∧
      (i.mnemonic ∈ [.ASL, .ROL] → getFlag p' .C = s.a.getLsbD 7 ∧
        (∀ k < 7, r.getLsbD (k + 1) = s.a.getLsbD k) ∧ r.getLsbD 0 = (decide (i.mnemonic = .ROL) && getFlag s.p .C)) ∧
      (i.mnemonic ∈ [.LSR, .ROR] → getFlag p' .C = s.a.getLsbD 0 ∧
        (∀ k < 7, r.getLsbD k = s.a.getLsbD (k + 1)) ∧ r.getLsbD 7 = (decide (i.mnemonic = .ROR) && getFlag s.p .C))

/-- The memory forms of ASL, LSR, ROL and ROR: their opcode bytes decode to their forms; the operand has an
effective address ea with byte v; exec completes, in every state, and writes r at ea, every other address
reading as before: shifted left or right as in the accumulator form, with 0 or the old C in the vacated bit; C
is the bit of v shifted out, Z and N from r, A, V and all else unchanged. The opcode bytes are the spec's
decision D1 (log 4). [R171, R173, R175, R177, R111, R47] -/
def Obligations.MemoryShiftsMoveOneBit : Prop :=
  (∀ b1 b2 : Byte,
    decodeBytes 0x06 b1 b2 = some (.aslZp b1) ∧
    decodeBytes 0x16 b1 b2 = some (.aslZpX b1) ∧
    decodeBytes 0x0E b1 b2 = some (.aslAbs (word16 b2 b1)) ∧
    decodeBytes 0x1E b1 b2 = some (.aslAbsX (word16 b2 b1)) ∧
    decodeBytes 0x46 b1 b2 = some (.lsrZp b1) ∧
    decodeBytes 0x56 b1 b2 = some (.lsrZpX b1) ∧
    decodeBytes 0x4E b1 b2 = some (.lsrAbs (word16 b2 b1)) ∧
    decodeBytes 0x5E b1 b2 = some (.lsrAbsX (word16 b2 b1)) ∧
    decodeBytes 0x26 b1 b2 = some (.rolZp b1) ∧
    decodeBytes 0x36 b1 b2 = some (.rolZpX b1) ∧
    decodeBytes 0x2E b1 b2 = some (.rolAbs (word16 b2 b1)) ∧
    decodeBytes 0x3E b1 b2 = some (.rolAbsX (word16 b2 b1)) ∧
    decodeBytes 0x66 b1 b2 = some (.rorZp b1) ∧
    decodeBytes 0x76 b1 b2 = some (.rorZpX b1) ∧
    decodeBytes 0x6E b1 b2 = some (.rorAbs (word16 b2 b1)) ∧
    decodeBytes 0x7E b1 b2 = some (.rorAbsX (word16 b2 b1))) ∧
  ∀ (i : Instr) (s : State), i.mnemonic ∈ [.ASL, .LSR, .ROL, .ROR] → i.descriptor.form ≠ .accumulator →
    ∃ ea v r mem' p', Operand.ea i.operand s = some ea ∧ v = s.read ea ∧
      exec i s = .next { s with mem := mem', p := p' } ∧ StoredAt ea r s.mem mem' ∧
      getFlag p' .Z = decide (r = 0) ∧ getFlag p' .N = r.getLsbD 7 ∧
      (∀ f, f ∉ [Flag.C, .Z, .N] → getFlag p' f = getFlag s.p f) ∧
      (i.mnemonic ∈ [.ASL, .ROL] → getFlag p' .C = v.getLsbD 7 ∧
        (∀ k < 7, r.getLsbD (k + 1) = v.getLsbD k) ∧ r.getLsbD 0 = (decide (i.mnemonic = .ROL) && getFlag s.p .C)) ∧
      (i.mnemonic ∈ [.LSR, .ROR] → getFlag p' .C = v.getLsbD 0 ∧
        (∀ k < 7, r.getLsbD k = v.getLsbD (k + 1)) ∧ r.getLsbD 7 = (decide (i.mnemonic = .ROR) && getFlag s.p .C))

/-- BIT in both forms: its opcode bytes decode to its forms; the operand has a byte m; exec completes, in every
state, and changes P alone: Z = ((m & A) == 0), V = m[6], N = m[7], the other five flags unchanged; A and memory
are unchanged. The opcode bytes are the spec's decision D1 (log 4). [R190, R111, 90_conflicts.md C3] -/
def Obligations.BitTestsWithoutWriting : Prop :=
  (∀ b1 b2 : Byte,
    decodeBytes 0x24 b1 b2 = some (.bitZp b1) ∧
    decodeBytes 0x2C b1 b2 = some (.bitAbs (word16 b2 b1))) ∧
  ∀ (i : Instr) (s : State), i.mnemonic = .BIT →
    ∃ m p', Operand.value i.operand s = some m ∧ exec i s = .next { s with p := p' } ∧
      (getFlag p' .Z = true ↔ ∀ k < 8, ¬ (m.getLsbD k = true ∧ s.a.getLsbD k = true)) ∧
      getFlag p' .V = m.getLsbD 6 ∧ getFlag p' .N = m.getLsbD 7 ∧
      ∀ f, f ∉ [Flag.Z, .V, .N] → getFlag p' f = getFlag s.p f

/-- Each branch's opcode byte decodes to it with the offset byte read as a signed number; exec completes, in every
state: with the tested flag (C clear, C set, Z set, Z clear, N set, N clear, V clear, V set) as the mnemonic
asks, pc becomes pc + 1 + offset, wrapping modulo 65536 (pc being the offset byte's address); otherwise nothing
changes. No flag, register or memory byte changes. The opcode bytes are the spec's decision D1 (log 4). [R195,
R196, R197, R198, R199, R200, R201, R202, R203] -/
def Obligations.BranchRulesTestOneFlag : Prop :=
  (∀ b1 b2 : Byte,
    decodeBytes 0x90 b1 b2 = some (.bcc b1.toInt) ∧
    decodeBytes 0xB0 b1 b2 = some (.bcs b1.toInt) ∧
    decodeBytes 0xF0 b1 b2 = some (.beq b1.toInt) ∧
    decodeBytes 0xD0 b1 b2 = some (.bne b1.toInt) ∧
    decodeBytes 0x30 b1 b2 = some (.bmi b1.toInt) ∧
    decodeBytes 0x10 b1 b2 = some (.bpl b1.toInt) ∧
    decodeBytes 0x50 b1 b2 = some (.bvc b1.toInt) ∧
    decodeBytes 0x70 b1 b2 = some (.bvs b1.toInt)) ∧
  ∀ (off : Int) (s : State),
    exec (.bcc off) s = .next (if getFlag s.p .C = false then { s with pc := s.pc + 1 + BitVec.ofInt 16 off } else s) ∧
    exec (.bcs off) s = .next (if getFlag s.p .C = true then { s with pc := s.pc + 1 + BitVec.ofInt 16 off } else s) ∧
    exec (.beq off) s = .next (if getFlag s.p .Z = true then { s with pc := s.pc + 1 + BitVec.ofInt 16 off } else s) ∧
    exec (.bne off) s = .next (if getFlag s.p .Z = false then { s with pc := s.pc + 1 + BitVec.ofInt 16 off } else s) ∧
    exec (.bmi off) s = .next (if getFlag s.p .N = true then { s with pc := s.pc + 1 + BitVec.ofInt 16 off } else s) ∧
    exec (.bpl off) s = .next (if getFlag s.p .N = false then { s with pc := s.pc + 1 + BitVec.ofInt 16 off } else s) ∧
    exec (.bvc off) s = .next (if getFlag s.p .V = false then { s with pc := s.pc + 1 + BitVec.ofInt 16 off } else s) ∧
    exec (.bvs off) s = .next (if getFlag s.p .V = true then { s with pc := s.pc + 1 + BitVec.ofInt 16 off } else s)

/-- For each branch opcode with its flag and value, in Fetching: step answers the state with only pc changed and
nothing in flight; when the flag is as asked and the offset byte is not 0xFF, pc = pc_op + 2 + sext_16(offset)
modulo 65536; when the flag is not as asked, or the offset byte is 0xFF, pc = pc_op + 2. The 0xFF case is
decision D12, ByValue (log 10). The opcode bytes are the spec's decision D1 (log 4). [R195, R104, R259,
46_branches.md section 2, 92_eei_decisions.md D1, D12] -/
def Obligations.BranchStepGoesToTarget : Prop :=
  ∀ (s : State) (op : Byte) (f : Flag) (v : Bool),
    (op, f, v) ∈
      [(0x90, .C, false), (0xB0, .C, true), (0xF0, .Z, true), (0xD0, .Z, false),
       (0x30, .N, true), (0x10, .N, false), (0x50, .V, false), (0x70, .V, true)] →
    s.es = .fetching → s.read s.pc = op →
    step s = .next
      { s with
        pc :=
          if getFlag s.p f = v ∧ s.read (s.pc + 1) ≠ 0xFF then s.pc + 2 + (s.read (s.pc + 1)).signExtend 16
          else s.pc + 2
        inFlight := none }

/-- exec of NOP answers the state unchanged, in every state; and a step in Fetching with 0xEA at pc answers the
state with pc one further and nothing in flight, all else unchanged; NOP is the one decoded instruction of the
table named NOP. [R210] -/
def Obligations.NopOnlyAdvancesPc : Prop :=
  (∀ s : State, exec .nop s = .next s) ∧
  (∀ s : State, s.es = .fetching → s.read s.pc = 0xEA → step s = .next { s with pc := s.pc + 1, inFlight := none }) ∧
  (∀ op b1 b2 i, decodeBytes op b1 b2 = some i → (i.mnemonic = .NOP ↔ op = 0xEA))

/-- exec of BRK answers the state with es = Halted alone changed, in every state; and a step in Fetching with 0x00
at pc answers the state with pc = pc_op + 1 (no advance), es = Halted and nothing in flight; P (B among it), sp,
A, X, Y, memory and fault are unchanged. [R105] -/
def Obligations.BrkHaltsAfterItsByte : Prop :=
  (∀ s : State, exec .brk s = .next { s with es := .halted }) ∧
  (∀ s : State, s.es = .fetching → s.read s.pc = 0x00 →
    step s = .next { s with pc := s.pc + 1, es := .halted, inFlight := none })

/-- For every state and byte v: SetZN(v) sets Z to (v == 0x00) and N to v[7], leaves the six other flags as they
were, and changes nothing but P. [R108] -/
def Obligations.SetZnWritesZeroAndNegativeOnly : Prop :=
  ∀ (s : State) (v : Byte),
    ZnUpdate v s.p (s.setZN v).p ∧ s.setZN v = { s with p := (s.setZN v).p }

/-- With pc at the first operand byte, Resolve gives: Immediate, pc; ZeroPage, the next byte zero-extended;
ZeroPage-X and -Y, that byte plus X or Y modulo 256, in page 0; Absolute, the next two bytes little-endian;
Absolute-X and -Y, plus X or Y modulo 65536; Indirect-X, the zero-page pointer at (next byte + X) mod 256;
Indirect-Y, the zero-page pointer at the next byte, plus Y modulo 65536; the pointer's high byte is read from (p
+ 1) mod 256 in page 0. [R51, R52, R53, R54, R55, R56, R57, R58, R59, R60] -/
def Obligations.ResolveGivesEffectiveAddress : Prop :=
  ∀ s : State,
    (resolve .immediate s = some s.pc) ∧
    (∃ ea, resolve .zeroPage s = some ea ∧ ea.toNat = (s.read s.pc).toNat) ∧
    (∃ ea, resolve .zeroPageX s = some ea ∧ ea.toNat = ((s.read s.pc).toNat + s.x.toNat) % 256) ∧
    (∃ ea, resolve .zeroPageY s = some ea ∧ ea.toNat = ((s.read s.pc).toNat + s.y.toNat) % 256) ∧
    (let w := 256 * (s.read (s.pc + 1)).toNat + (s.read s.pc).toNat
     (∃ ea, resolve .absolute s = some ea ∧ ea.toNat = w) ∧
     (∃ ea, resolve .absoluteX s = some ea ∧ ea.toNat = (w + s.x.toNat) % 65536) ∧
     (∃ ea, resolve .absoluteY s = some ea ∧ ea.toNat = (w + s.y.toNat) % 65536)) ∧
    (∀ p : Byte, ∃ lo hi : Addr, lo.toNat = p.toNat ∧ hi.toNat = (p.toNat + 1) % 256 ∧
      (s.zpPointer p).toNat = 256 * (s.read hi).toNat + (s.read lo).toNat) ∧
    (resolve .indirectX s = some (s.zpPointer (s.read s.pc + s.x))) ∧
    (∃ ea, resolve .indirectY s = some ea ∧
      ea.toNat = ((s.zpPointer (s.read s.pc)).toNat + s.y.toNat) % 65536)

/-- When the bytes at pc decode to i, then in the state exec runs it in: the effective address of i's operand is
Resolve of the descriptor's mode, computed from pc, X, Y and memory; and its operand byte is MemRead of that
address (an immediate's too). [R50, R73, R111, R64] -/
def Obligations.DecodedOperandIsResolved : Prop :=
  ∀ (s : State) (i : Instr),
    decodeBytes (s.read s.pc) (s.read (s.pc + 1)) (s.read (s.pc + 2)) = some i →
    let d := s.dispatched i
    Operand.ea i.operand d = resolve i.descriptor.mode d ∧
    Operand.value i.operand d = (resolve i.descriptor.mode d).map d.read

/-- Resolve of the tag None gives no address; each rule that requires an address (load, store, INC, the bitwise
rules, ADC, SBC, BIT, the memory shifts), given the operand None with an instruction in flight, answers the
state with fault record (InvalidAddressingMode, pc_op, op) and es = Faulted, all else unchanged; and every
instruction of the table whose rule requires an address has one, in every state. The record and the state the
error leaves rest on decisions D13 and D15 (log 11). [R61, R111, R223, R225, 92_eei_decisions.md D13, D15] -/
def Obligations.NoneModeRaisesInvalidAddressing : Prop :=
  (∀ s : State, resolve .noMode s = none) ∧
  (∀ (s : State) (c : InFlight) (r : Reg) (f : Byte → Byte → Byte) (k : Shift), s.inFlight = some c →
    let t : State := { s with es := .faulted, fault := some ⟨.invalidAddressingMode, c.pcOp, c.op⟩ }
    loadRule r .noMode s = .next t ∧ storeRule r .noMode s = .next t ∧ incMemRule .noMode s = .next t ∧
    bitwiseRule f .noMode s = .next t ∧ adcRule .noMode s = .next t ∧ sbcRule .noMode s = .next t ∧
    bitRule .noMode s = .next t ∧ shiftMemRule k .noMode s = .next t) ∧
  (∀ (i : Instr) (s : State),
    i.mnemonic ∈ [.LDA, .LDX, .LDY, .STA, .STX, .STY, .INC, .AND, .ORA, .EOR, .ADC, .SBC, .BIT] ∨
      (i.mnemonic ∈ [.ASL, .LSR, .ROL, .ROR] ∧ i.descriptor.form ≠ .accumulator) →
    ∃ ea, Operand.ea i.operand s = some ea)

/-- For every state, address and byte: after MemWrite(addr, 1, v), reading addr gives v, reading any other address
gives what it gave before, every address being writable; the byte fetched at any pc is read the same way; and
nothing but memory changes. [R42] -/
def Obligations.StoredByteReadsBack : Prop :=
  ∀ (s : State) (addr b : Addr) (v : Byte),
    (s.write addr v).read b = (if b = addr then v else s.read b) ∧
    s.write addr v = { s with mem := (s.write addr v).mem } ∧
    (s.write addr v).instrAt b =
      (let rd : Addr → Byte := fun x => if x = addr then v else s.read x
       decodeBytes (rd b) (rd (b + 1)) (rd (b + 2)))

/-- MemRead(addr, 2) is mem[addr] + 256 * mem[addr + 1], the second address wrapping modulo 65536 (decision D9, log
7); after MemWrite(addr, 2, v), addr reads as v[7:0], addr + 1 as v[15:8], and every other address as before.
[R43, R44, R45, 92_eei_decisions.md D9] -/
def Obligations.WordAccessesAreLittleEndian : Prop :=
  (∀ (s : State) (addr : Addr), (s.read16 addr).toNat = (s.read addr).toNat + 256 * (s.read (addr + 1)).toNat) ∧
  (∀ (s : State) (addr v b : Addr), ((s.write16 addr v).read b).toNat =
    if b = addr then v.toNat % 256 else if b = addr + 1 then v.toNat / 256 else (s.read b).toNat)

/-- About the model's representation (log 21): two memories in canonical form in which each of the 65536 addresses
reads the same are the same list. [R31, R40, INVENTORY.md Memory and ordering] -/
def Obligations.CanonicalMemoriesAreExtensional : Prop :=
  ∀ m m' : Memory, Memory.wf m = true → Memory.wf m' = true →
    (∀ addr : Addr, Memory.read m addr.toNat = Memory.read m' addr.toNat) → m = m'

/-- sp is a field of the state, and for every state and every step that answers a next state, sp is the same after
as before. [R24] -/
def Obligations.StackPointerSurvivesEveryStep : Prop :=
  ∀ s t : State, step s = .next t → t.sp = s.sp

/-- Write s[q] for s with I, D, B and B2 taken from the byte q. For every state and q: step of s[q] is step of s
with those four flags from q in its next state (so no rule reads or writes them, BRK among them: taking q from P
itself, they are unchanged); a run of any length and a load leave them as they were; reset sets P to P_RESET;
construction does too; and a host write of P sets them. That they are bits 2 to 5 of P is decision D5 (log 5).
[R29, R25, 92_eei_decisions.md D5] -/
def Obligations.UnusedFlagsAreInertStorage : Prop :=
  let put : State → Byte → State := fun s q => { s with p := (s.p &&& 0xC3) ||| (q &&& 0x3C) }
  (∀ (s : State) (q : Byte),
    step (put s q) = match step s with
      | .next t => .next (put t q)
      | .fault r => .fault r
      | .refused r => .refused r) ∧
  (∀ (s t : State) (f : Flag), f ∈ [.I, .D, .B, .B2] → step s = .next t → getFlag t.p f = getFlag s.p f) ∧
  (∀ (s : State) (fuel : Nat) (f : Flag), f ∈ [.I, .D, .B, .B2] → getFlag (hostRun fuel s).2.p f = getFlag s.p f) ∧
  (∀ (s : State) (bytes : List Byte), (hostLoad bytes s).2.p = s.p) ∧
  (∀ (s : State) (params : Params), (hostReset params s).p = params.pReset) ∧
  (∀ params : Params, (State.construct params).p = params.pReset) ∧
  (∀ (s : State) (v : Byte), (hostAct (.writeP v) s).2.p = v)

/-- Whenever exec answers a next state in which C differs, the instruction is ADC, SBC, ASL, LSR, ROL or ROR; in
which V differs, ADC, SBC or BIT; in which Z or N differs, none of STA, STX, STY, the branches, NOP, BRK or an
undispatched instruction. [R25, R26, R27, R28, R109] -/
def Obligations.OnlyListedInstructionsWriteFlags : Prop :=
  ∀ (i : Instr) (s t : State), exec i s = .next t →
    (getFlag t.p .C ≠ getFlag s.p .C → i.mnemonic ∈ [.ADC, .SBC, .ASL, .LSR, .ROL, .ROR]) ∧
    (getFlag t.p .V ≠ getFlag s.p .V → i.mnemonic ∈ [.ADC, .SBC, .BIT]) ∧
    (getFlag t.p .Z ≠ getFlag s.p .Z ∨ getFlag t.p .N ≠ getFlag s.p .N →
      i.mnemonic ∈ [.LDA, .LDX, .LDY, .TAX, .TXA, .TAY, .TYA, .INC, .INX, .INY, .AND, .ORA, .EOR, .ADC, .SBC,
        .ASL, .LSR, .ROL, .ROR, .BIT])

/-- Whenever exec answers a next state: A differs only after LDA, TXA, TYA, AND, ORA, EOR, ADC, SBC or an
accumulator shift; X only after LDX, TAX, INX; Y only after LDY, TAY, INY; pc only after a branch; memory only
after STA, STX, STY, INC or a memory shift, and then at no address but the operand's effective address; es or
fault only after BRK or an undispatched instruction; sp and what is in flight never. [R21, R24, R33, R47] -/
def Obligations.OnlyListedInstructionsWriteState : Prop :=
  ∀ (i : Instr) (s t : State), exec i s = .next t →
    (t.a ≠ s.a → i.mnemonic ∈ [.LDA, .TXA, .TYA, .AND, .ORA, .EOR, .ADC, .SBC] ∨ i ∈ [Instr.aslA, .lsrA, .rolA, .rorA]) ∧
    (t.x ≠ s.x → i.mnemonic ∈ [.LDX, .TAX, .INX]) ∧
    (t.y ≠ s.y → i.mnemonic ∈ [.LDY, .TAY, .INY]) ∧
    (t.pc ≠ s.pc → i.mnemonic ∈ [.BCC, .BCS, .BEQ, .BNE, .BMI, .BPL, .BVC, .BVS]) ∧
    (t.mem ≠ s.mem → i.mnemonic ∈ [.STA, .STX, .STY, .INC, .ASL, .LSR, .ROL, .ROR] ∧ i.descriptor.form ≠ .accumulator) ∧
    (∀ ea b : Addr, Operand.ea i.operand s = some ea → b ≠ ea → t.read b = s.read b) ∧
    (t.es ≠ s.es ∨ t.fault ≠ s.fault → i.mnemonic = .BRK ∨ i.mnemonic.dispatched = false) ∧
    t.sp = s.sp ∧ t.inFlight = s.inFlight

/-- In Fetching, when the bytes at pc decode to a dispatched instruction that is no branch and not BRK, step answers
a next state, in Fetching, with pc = pc_op + len modulo 65536, the same fault record and nothing in flight.
[R22, R74, R104, 40_dispatch.md section 2] -/
def Obligations.NextFetchIsAfterInstruction : Prop :=
  ∀ (s : State) (i : Instr), s.es = .fetching →
    decodeBytes (s.read s.pc) (s.read (s.pc + 1)) (s.read (s.pc + 2)) = some i →
    i.mnemonic.dispatched = true → i.branchOffset = none → i.mnemonic ≠ .BRK →
    ∃ t, step s = .next t ∧ t.es = .fetching ∧ t.pc.toNat = (s.pc.toNat + i.len) % 65536 ∧
      t.fault = s.fault ∧ t.inFlight = none

/-- In Fetching, when the bytes at pc decode to an instruction i that writes memory (STA, STX, STY, INC or a memory
shift, in any form), whatever the address it stores to, its own bytes or the next instruction's among them: its
operand has an effective address ea, exec of i answers a next state u, and step answers a next state in Fetching
with pc = pc_op + len, whose byte at ea is the one u holds there and whose byte at every other address is as
before; the instruction at its pc is what those new bytes decode to. The byte stored is A, X or Y for STA, STX,
STY and the old byte + 1 mod 256 for INC; for a shift it is that of MemoryShiftsMoveOneBit. [R64, R258, R47,
20_memory.md section 5] -/
def Obligations.StoreIsSeenByNextFetch : Prop :=
  ∀ (s : State) (i : Instr), s.es = .fetching →
    decodeBytes (s.read s.pc) (s.read (s.pc + 1)) (s.read (s.pc + 2)) = some i →
    (i.mnemonic ∈ [.STA, .STX, .STY, .INC] ∨
      (i.mnemonic ∈ [.ASL, .LSR, .ROL, .ROR] ∧ i.descriptor.form ≠ .accumulator)) →
    ∃ ea u t, Operand.ea i.operand (s.dispatched i) = some ea ∧ exec i (s.dispatched i) = .next u ∧
      step s = .next t ∧ t.es = .fetching ∧ t.pc = s.pc + BitVec.ofNat 16 i.len ∧
      (let rd : Addr → Byte := fun b => if b = ea then u.read ea else s.read b
       (∀ b, t.read b = rd b) ∧ t.instrAt t.pc = decodeBytes (rd t.pc) (rd (t.pc + 1)) (rd (t.pc + 2))) ∧
      (i.mnemonic = .STA → u.read ea = s.a) ∧
      (i.mnemonic = .STX → u.read ea = s.x) ∧
      (i.mnemonic = .STY → u.read ea = s.y) ∧
      (i.mnemonic = .INC → (u.read ea).toNat = ((s.read ea).toNat + 1) % 256)

/-- For a program of at most 0x8000 bytes, load returns Ok and changes memory alone: 0xFFFC reads 0x00 and 0xFFFD
reads 0x80, every other address 0x8000 + i with i below the length reads byte i, and every other address reads
as before. For a longer one it returns ProgramTooLarge with the length and changes nothing. The limit and the
order are decision D17 (log 13). [R252, R224, 92_eei_decisions.md D17] -/
def Obligations.LoadCopiesProgramAndVector : Prop :=
  ∀ (bytes : List Byte) (s : State),
    (bytes.length ≤ 0x8000 →
      ∃ mem', hostLoad bytes s = (.ok, { s with mem := mem' }) ∧
        ∀ b : Addr, Memory.read mem' b.toNat =
          if b = 0xFFFC then 0x00
          else if b = 0xFFFD then 0x80
          else if 0x8000 ≤ b.toNat ∧ b.toNat - 0x8000 < bytes.length then bytes.getD (b.toNat - 0x8000) 0
          else s.read b) ∧
    (0x8000 < bytes.length → hostLoad bytes s = (.programTooLarge bytes.length, s))

/-- For a program of at most 0x8000 bytes, load_and_run is run of reset of load, and the pc it starts from is
0x8000; a longer program returns load's error with no state change. The limit, and that the vector wins over the
program at 0xFFFC and 0xFFFD, are decision D17 (log 13). [R253, R254, R251, R252, 92_eei_decisions.md D17] -/
def Obligations.LoadAndRunStartsAtOrigin : Prop :=
  ∀ (params : Params) (fuel : Nat) (bytes : List Byte) (s : State),
    (bytes.length ≤ 0x8000 →
      hostLoadAndRun params fuel bytes s = hostRun fuel (hostReset params (hostLoad bytes s).2) ∧
      (hostReset params (hostLoad bytes s).2).pc = 0x8000) ∧
    (0x8000 < bytes.length → hostLoadAndRun params fuel bytes s = (.programTooLarge bytes.length, s))

/-- From a state that meets the invariant, for every number of steps: run returns Ok only with es = Halted, an error
only with es = Faulted and the recorded error, and otherwise has not ended, with es = Fetching; it is never
refused; once it has returned, more steps allowed give the same return and state; from Halted it resumes at pc.
From any state but Faulted, run with one step more is the step of the state with es = Fetching, returned with Ok
where that step ends Halted and with its error where it ends Faulted, and otherwise followed by run; with no
step allowed it has not ended. The bound on steps is the model's (log 19). [R112, R226, R236,
92_eei_decisions.md D16] -/
def Obligations.RunReturnsOnlyWhenStopped : Prop :=
  ∀ (fuel : Nat) (s : State), s.Inv →
    let res := hostRun fuel s
    ((res.1 = .ok ∧ res.2.es = .halted) ∨
     (res.1 = .error res.2.fault ∧ res.2.es = .faulted) ∨
     (res.1 = .notEnded ∧ res.2.es = .fetching)) ∧
    (res.1 ≠ .notEnded → ∀ more, hostRun (fuel + more) s = res) ∧
    (s.es = .halted → res = hostRun fuel { s with es := .fetching }) ∧
    (s.es ≠ .faulted →
      hostRun 0 s = (.notEnded, { s with es := .fetching }) ∧
      ∃ t, step { s with es := .fetching } = .next t ∧
        hostRun (fuel + 1) s =
          if t.es = .halted then (.ok, t) else if t.es = .faulted then (.error t.fault, t) else hostRun fuel t)

/-- For every value of the OPEN parameters and every number of steps above 0: run of the constructed block returns
Ok with pc = 0x0001 and es = Halted, all else as constructed. It rests on pc = 0x0000 and es = Fetching at
construction, decision D8 (log 6). [R254, 70_reset_and_hazards.md section 2, 92_eei_decisions.md D8] -/
def Obligations.RunOnConstructedBlockHaltsAtOnce : Prop :=
  ∀ (params : Params) (fuel : Nat),
    hostRun (fuel + 1) (State.construct params) = (.ok, { State.construct params with pc := 0x0001, es := .halted })

/-- A host write of A, X, Y, P, sp, pc or a memory byte puts the value there, and neither it nor a load changes es
or fault. That the host cannot write them is decision D21 (log 20). [R256, 92_eei_decisions.md D21] -/
def Obligations.HostWritesLeaveEngineState : Prop :=
  ∀ (s : State) (r q : Reg) (v : Byte) (w b : Addr) (bytes : List Byte),
    (hostAct (.writeReg r v) s).2.reg q = (if q = r then v else s.reg q) ∧
    (hostAct (.writeP v) s).2 = { s with p := v } ∧
    (hostAct (.writeSp v) s).2 = { s with sp := v } ∧
    (hostAct (.writePc w) s).2 = { s with pc := w } ∧
    (hostAct (.writeMem w v) s).2.read b = (if b = w then v else s.read b) ∧
    ∀ act ∈ [HostAction.writeReg r v, .writeP v, .writeSp v, .writePc w, .writeMem w v, .load bytes],
      (hostAct act s).2.es = s.es ∧ (hostAct act s).2.fault = s.fault

/-- For every branch address and target: the assembler computes off exactly when off is in -128 to 127 and pc_op + 2
+ off, wrapping modulo 65536, is the target. And in Fetching with a branch opcode at pc, its flag as asked and
that offset encoded in its offset byte, step answers a next state in Fetching whose pc is the target, but for
off = -1, where it is pc_op + 2. The case -1 is decision D12 (log 10), the branches' byte values D1 (log 4), the
notation D23 (log 23). [30_encoding.md R80, R195, R104, R259, 92_eei_decisions.md D1, D12, D23] -/
def Obligations.AssembledOffsetSumsToTarget : Prop :=
  (∀ (pcOp target : Addr) (off : Int),
    assembleOffset pcOp target = some off ↔ offsetInRange off = true ∧ pcOp + 2 + BitVec.ofInt 16 off = target) ∧
  ∀ (s : State) (op : Byte) (f : Flag) (v : Bool) (target : Addr) (off : Int),
    (op, f, v) ∈
      [(0x90, .C, false), (0xB0, .C, true), (0xF0, .Z, true), (0xD0, .Z, false),
       (0x30, .N, true), (0x10, .N, false), (0x50, .V, false), (0x70, .V, true)] →
    s.es = .fetching → s.read s.pc = op → getFlag s.p f = v →
    assembleOffset s.pc target = some off → s.read (s.pc + 1) = byteOfOffset off →
    ∃ t, step s = .next t ∧ t.es = .fetching ∧ t.pc = if off = -1 then s.pc + 2 else target

/-- In Fetching, the host's step() leaves the state t that step answers; it returns Ok where t is in Fetching or
Halted, and the error with the record of t, which is not none, where t is in Faulted; t is in one of the three.
It rests on decisions D13 and D16 (log 11, 12). [R113, R220, 92_eei_decisions.md D13, D16] -/
def Obligations.HostStepReturnsByEngineState : Prop :=
  ∀ s : State, s.es = .fetching →
    ∃ t, step s = .next t ∧
      (((t.es = .fetching ∨ t.es = .halted) ∧ hostStep s = (.ok, t)) ∨
       (t.es = .faulted ∧ ∃ record, t.fault = some record ∧ hostStep s = (.error (some record), t)))
end

