-- ==== Sys2Proof/Laws/State.lean ====
section
/-! SUPPORT. One lemma per field per state update, each true by `rfl`, so that no later proof unfolds a record
update. An update's lemmas list every field it keeps, and what it puts in the fields it writes. -/
namespace Sys2Proof.Machine

/-! #### write -/

@[simp] theorem State.write_a (s : State) (addr : Addr) (v : Byte) :
    (s.write addr v).a = s.a := rfl
@[simp] theorem State.write_x (s : State) (addr : Addr) (v : Byte) :
    (s.write addr v).x = s.x := rfl
@[simp] theorem State.write_y (s : State) (addr : Addr) (v : Byte) :
    (s.write addr v).y = s.y := rfl
@[simp] theorem State.write_pc (s : State) (addr : Addr) (v : Byte) :
    (s.write addr v).pc = s.pc := rfl
@[simp] theorem State.write_sp (s : State) (addr : Addr) (v : Byte) :
    (s.write addr v).sp = s.sp := rfl
@[simp] theorem State.write_p (s : State) (addr : Addr) (v : Byte) :
    (s.write addr v).p = s.p := rfl
@[simp] theorem State.write_mem (s : State) (addr : Addr) (v : Byte) :
    (s.write addr v).mem = Memory.write s.mem addr.toNat v := rfl
@[simp] theorem State.write_es (s : State) (addr : Addr) (v : Byte) :
    (s.write addr v).es = s.es := rfl
@[simp] theorem State.write_fault (s : State) (addr : Addr) (v : Byte) :
    (s.write addr v).fault = s.fault := rfl
@[simp] theorem State.write_inFlight (s : State) (addr : Addr) (v : Byte) :
    (s.write addr v).inFlight = s.inFlight := rfl

/-! #### setP -/

@[simp] theorem State.setP_a (s : State) (v : Byte) :
    (s.setP v).a = s.a := rfl
@[simp] theorem State.setP_x (s : State) (v : Byte) :
    (s.setP v).x = s.x := rfl
@[simp] theorem State.setP_y (s : State) (v : Byte) :
    (s.setP v).y = s.y := rfl
@[simp] theorem State.setP_pc (s : State) (v : Byte) :
    (s.setP v).pc = s.pc := rfl
@[simp] theorem State.setP_sp (s : State) (v : Byte) :
    (s.setP v).sp = s.sp := rfl
@[simp] theorem State.setP_p (s : State) (v : Byte) :
    (s.setP v).p = v := rfl
@[simp] theorem State.setP_mem (s : State) (v : Byte) :
    (s.setP v).mem = s.mem := rfl
@[simp] theorem State.setP_es (s : State) (v : Byte) :
    (s.setP v).es = s.es := rfl
@[simp] theorem State.setP_fault (s : State) (v : Byte) :
    (s.setP v).fault = s.fault := rfl
@[simp] theorem State.setP_inFlight (s : State) (v : Byte) :
    (s.setP v).inFlight = s.inFlight := rfl

/-! #### setPc -/

@[simp] theorem State.setPc_a (s : State) (v : Addr) :
    (s.setPc v).a = s.a := rfl
@[simp] theorem State.setPc_x (s : State) (v : Addr) :
    (s.setPc v).x = s.x := rfl
@[simp] theorem State.setPc_y (s : State) (v : Addr) :
    (s.setPc v).y = s.y := rfl
@[simp] theorem State.setPc_pc (s : State) (v : Addr) :
    (s.setPc v).pc = v := rfl
@[simp] theorem State.setPc_sp (s : State) (v : Addr) :
    (s.setPc v).sp = s.sp := rfl
@[simp] theorem State.setPc_p (s : State) (v : Addr) :
    (s.setPc v).p = s.p := rfl
@[simp] theorem State.setPc_mem (s : State) (v : Addr) :
    (s.setPc v).mem = s.mem := rfl
@[simp] theorem State.setPc_es (s : State) (v : Addr) :
    (s.setPc v).es = s.es := rfl
@[simp] theorem State.setPc_fault (s : State) (v : Addr) :
    (s.setPc v).fault = s.fault := rfl
@[simp] theorem State.setPc_inFlight (s : State) (v : Addr) :
    (s.setPc v).inFlight = s.inFlight := rfl

/-! #### setFlag -/

@[simp] theorem State.setFlag_a (s : State) (f : Flag) (v : Bool) :
    (s.setFlag f v).a = s.a := rfl
@[simp] theorem State.setFlag_x (s : State) (f : Flag) (v : Bool) :
    (s.setFlag f v).x = s.x := rfl
@[simp] theorem State.setFlag_y (s : State) (f : Flag) (v : Bool) :
    (s.setFlag f v).y = s.y := rfl
@[simp] theorem State.setFlag_pc (s : State) (f : Flag) (v : Bool) :
    (s.setFlag f v).pc = s.pc := rfl
@[simp] theorem State.setFlag_sp (s : State) (f : Flag) (v : Bool) :
    (s.setFlag f v).sp = s.sp := rfl
@[simp] theorem State.setFlag_p (s : State) (f : Flag) (v : Bool) :
    (s.setFlag f v).p = Machine.setFlag s.p f v := rfl
@[simp] theorem State.setFlag_mem (s : State) (f : Flag) (v : Bool) :
    (s.setFlag f v).mem = s.mem := rfl
@[simp] theorem State.setFlag_es (s : State) (f : Flag) (v : Bool) :
    (s.setFlag f v).es = s.es := rfl
@[simp] theorem State.setFlag_fault (s : State) (f : Flag) (v : Bool) :
    (s.setFlag f v).fault = s.fault := rfl
@[simp] theorem State.setFlag_inFlight (s : State) (f : Flag) (v : Bool) :
    (s.setFlag f v).inFlight = s.inFlight := rfl

/-! #### setZN -/

@[simp] theorem State.setZN_a (s : State) (v : Byte) :
    (s.setZN v).a = s.a := rfl
@[simp] theorem State.setZN_x (s : State) (v : Byte) :
    (s.setZN v).x = s.x := rfl
@[simp] theorem State.setZN_y (s : State) (v : Byte) :
    (s.setZN v).y = s.y := rfl
@[simp] theorem State.setZN_pc (s : State) (v : Byte) :
    (s.setZN v).pc = s.pc := rfl
@[simp] theorem State.setZN_sp (s : State) (v : Byte) :
    (s.setZN v).sp = s.sp := rfl
@[simp] theorem State.setZN_p (s : State) (v : Byte) :
    (s.setZN v).p = znFlags s.p v := rfl
@[simp] theorem State.setZN_mem (s : State) (v : Byte) :
    (s.setZN v).mem = s.mem := rfl
@[simp] theorem State.setZN_es (s : State) (v : Byte) :
    (s.setZN v).es = s.es := rfl
@[simp] theorem State.setZN_fault (s : State) (v : Byte) :
    (s.setZN v).fault = s.fault := rfl
@[simp] theorem State.setZN_inFlight (s : State) (v : Byte) :
    (s.setZN v).inFlight = s.inFlight := rfl

/-! #### setBitTest -/

@[simp] theorem State.setBitTest_a (s : State) (m : Byte) :
    (s.setBitTest m).a = s.a := rfl
@[simp] theorem State.setBitTest_x (s : State) (m : Byte) :
    (s.setBitTest m).x = s.x := rfl
@[simp] theorem State.setBitTest_y (s : State) (m : Byte) :
    (s.setBitTest m).y = s.y := rfl
@[simp] theorem State.setBitTest_pc (s : State) (m : Byte) :
    (s.setBitTest m).pc = s.pc := rfl
@[simp] theorem State.setBitTest_sp (s : State) (m : Byte) :
    (s.setBitTest m).sp = s.sp := rfl
@[simp] theorem State.setBitTest_mem (s : State) (m : Byte) :
    (s.setBitTest m).mem = s.mem := rfl
@[simp] theorem State.setBitTest_es (s : State) (m : Byte) :
    (s.setBitTest m).es = s.es := rfl
@[simp] theorem State.setBitTest_fault (s : State) (m : Byte) :
    (s.setBitTest m).fault = s.fault := rfl
@[simp] theorem State.setBitTest_inFlight (s : State) (m : Byte) :
    (s.setBitTest m).inFlight = s.inFlight := rfl

/-! #### setShiftFlags -/

@[simp] theorem State.setShiftFlags_a (s : State) (k : Shift) (v r : Byte) :
    (s.setShiftFlags k v r).a = s.a := rfl
@[simp] theorem State.setShiftFlags_x (s : State) (k : Shift) (v r : Byte) :
    (s.setShiftFlags k v r).x = s.x := rfl
@[simp] theorem State.setShiftFlags_y (s : State) (k : Shift) (v r : Byte) :
    (s.setShiftFlags k v r).y = s.y := rfl
@[simp] theorem State.setShiftFlags_pc (s : State) (k : Shift) (v r : Byte) :
    (s.setShiftFlags k v r).pc = s.pc := rfl
@[simp] theorem State.setShiftFlags_sp (s : State) (k : Shift) (v r : Byte) :
    (s.setShiftFlags k v r).sp = s.sp := rfl
@[simp] theorem State.setShiftFlags_p (s : State) (k : Shift) (v r : Byte) :
    (s.setShiftFlags k v r).p = znFlags (Machine.setFlag s.p .C (k.carryOut v)) r := rfl
@[simp] theorem State.setShiftFlags_mem (s : State) (k : Shift) (v r : Byte) :
    (s.setShiftFlags k v r).mem = s.mem := rfl
@[simp] theorem State.setShiftFlags_es (s : State) (k : Shift) (v r : Byte) :
    (s.setShiftFlags k v r).es = s.es := rfl
@[simp] theorem State.setShiftFlags_fault (s : State) (k : Shift) (v r : Byte) :
    (s.setShiftFlags k v r).fault = s.fault := rfl
@[simp] theorem State.setShiftFlags_inFlight (s : State) (k : Shift) (v r : Byte) :
    (s.setShiftFlags k v r).inFlight = s.inFlight := rfl

/-! #### addWithCarry -/

@[simp] theorem State.addWithCarry_a (s : State) (m : Byte) :
    (s.addWithCarry m).a = addResult s.a m (s.flag .C) := rfl
@[simp] theorem State.addWithCarry_x (s : State) (m : Byte) :
    (s.addWithCarry m).x = s.x := rfl
@[simp] theorem State.addWithCarry_y (s : State) (m : Byte) :
    (s.addWithCarry m).y = s.y := rfl
@[simp] theorem State.addWithCarry_pc (s : State) (m : Byte) :
    (s.addWithCarry m).pc = s.pc := rfl
@[simp] theorem State.addWithCarry_sp (s : State) (m : Byte) :
    (s.addWithCarry m).sp = s.sp := rfl
@[simp] theorem State.addWithCarry_mem (s : State) (m : Byte) :
    (s.addWithCarry m).mem = s.mem := rfl
@[simp] theorem State.addWithCarry_es (s : State) (m : Byte) :
    (s.addWithCarry m).es = s.es := rfl
@[simp] theorem State.addWithCarry_fault (s : State) (m : Byte) :
    (s.addWithCarry m).fault = s.fault := rfl
@[simp] theorem State.addWithCarry_inFlight (s : State) (m : Byte) :
    (s.addWithCarry m).inFlight = s.inFlight := rfl

/-! #### enterFaulted -/

@[simp] theorem State.enterFaulted_a (s : State) (code : ErrorCode) (c : InFlight) :
    (s.enterFaulted code c).a = s.a := rfl
@[simp] theorem State.enterFaulted_x (s : State) (code : ErrorCode) (c : InFlight) :
    (s.enterFaulted code c).x = s.x := rfl
@[simp] theorem State.enterFaulted_y (s : State) (code : ErrorCode) (c : InFlight) :
    (s.enterFaulted code c).y = s.y := rfl
@[simp] theorem State.enterFaulted_pc (s : State) (code : ErrorCode) (c : InFlight) :
    (s.enterFaulted code c).pc = s.pc := rfl
@[simp] theorem State.enterFaulted_sp (s : State) (code : ErrorCode) (c : InFlight) :
    (s.enterFaulted code c).sp = s.sp := rfl
@[simp] theorem State.enterFaulted_p (s : State) (code : ErrorCode) (c : InFlight) :
    (s.enterFaulted code c).p = s.p := rfl
@[simp] theorem State.enterFaulted_mem (s : State) (code : ErrorCode) (c : InFlight) :
    (s.enterFaulted code c).mem = s.mem := rfl
@[simp] theorem State.enterFaulted_es (s : State) (code : ErrorCode) (c : InFlight) :
    (s.enterFaulted code c).es = .faulted := rfl
@[simp] theorem State.enterFaulted_fault (s : State) (code : ErrorCode) (c : InFlight) :
    (s.enterFaulted code c).fault = some ⟨code, c.pcOp, c.op⟩ := rfl
@[simp] theorem State.enterFaulted_inFlight (s : State) (code : ErrorCode) (c : InFlight) :
    (s.enterFaulted code c).inFlight = s.inFlight := rfl

/-! #### enterHalted -/

@[simp] theorem State.enterHalted_a (s : State) :
    (s.enterHalted).a = s.a := rfl
@[simp] theorem State.enterHalted_x (s : State) :
    (s.enterHalted).x = s.x := rfl
@[simp] theorem State.enterHalted_y (s : State) :
    (s.enterHalted).y = s.y := rfl
@[simp] theorem State.enterHalted_pc (s : State) :
    (s.enterHalted).pc = s.pc := rfl
@[simp] theorem State.enterHalted_sp (s : State) :
    (s.enterHalted).sp = s.sp := rfl
@[simp] theorem State.enterHalted_p (s : State) :
    (s.enterHalted).p = s.p := rfl
@[simp] theorem State.enterHalted_mem (s : State) :
    (s.enterHalted).mem = s.mem := rfl
@[simp] theorem State.enterHalted_es (s : State) :
    (s.enterHalted).es = .halted := rfl
@[simp] theorem State.enterHalted_fault (s : State) :
    (s.enterHalted).fault = s.fault := rfl
@[simp] theorem State.enterHalted_inFlight (s : State) :
    (s.enterHalted).inFlight = s.inFlight := rfl

/-! #### fetch -/

@[simp] theorem State.fetch_a (s : State) :
    (s.fetch).a = s.a := rfl
@[simp] theorem State.fetch_x (s : State) :
    (s.fetch).x = s.x := rfl
@[simp] theorem State.fetch_y (s : State) :
    (s.fetch).y = s.y := rfl
@[simp] theorem State.fetch_pc (s : State) :
    (s.fetch).pc = s.pc + 1 := rfl
@[simp] theorem State.fetch_sp (s : State) :
    (s.fetch).sp = s.sp := rfl
@[simp] theorem State.fetch_p (s : State) :
    (s.fetch).p = s.p := rfl
@[simp] theorem State.fetch_mem (s : State) :
    (s.fetch).mem = s.mem := rfl
@[simp] theorem State.fetch_es (s : State) :
    (s.fetch).es = .dispatching := rfl
@[simp] theorem State.fetch_fault (s : State) :
    (s.fetch).fault = s.fault := rfl
@[simp] theorem State.fetch_inFlight (s : State) :
    (s.fetch).inFlight = some ⟨s.pc, s.read s.pc, none⟩ := rfl

/-! #### latchDecoded -/

@[simp] theorem State.latchDecoded_a (s : State) (d : Descriptor) :
    (s.latchDecoded d).a = s.a := rfl
@[simp] theorem State.latchDecoded_x (s : State) (d : Descriptor) :
    (s.latchDecoded d).x = s.x := rfl
@[simp] theorem State.latchDecoded_y (s : State) (d : Descriptor) :
    (s.latchDecoded d).y = s.y := rfl
@[simp] theorem State.latchDecoded_pc (s : State) (d : Descriptor) :
    (s.latchDecoded d).pc = s.pc := rfl
@[simp] theorem State.latchDecoded_sp (s : State) (d : Descriptor) :
    (s.latchDecoded d).sp = s.sp := rfl
@[simp] theorem State.latchDecoded_p (s : State) (d : Descriptor) :
    (s.latchDecoded d).p = s.p := rfl
@[simp] theorem State.latchDecoded_mem (s : State) (d : Descriptor) :
    (s.latchDecoded d).mem = s.mem := rfl
@[simp] theorem State.latchDecoded_es (s : State) (d : Descriptor) :
    (s.latchDecoded d).es = s.es := rfl
@[simp] theorem State.latchDecoded_fault (s : State) (d : Descriptor) :
    (s.latchDecoded d).fault = s.fault := rfl
@[simp] theorem State.latchDecoded_inFlight (s : State) (d : Descriptor) :
    (s.latchDecoded d).inFlight = s.inFlight.map fun c => { c with decoded := some ⟨d, s.pc⟩ } := rfl

/-! #### hostReset -/

@[simp] theorem State.hostReset_a (s : State) (params : Params) :
    (hostReset params s).a = 0 := rfl
@[simp] theorem State.hostReset_x (s : State) (params : Params) :
    (hostReset params s).x = 0 := rfl
@[simp] theorem State.hostReset_y (s : State) (params : Params) :
    (hostReset params s).y = 0 := rfl
@[simp] theorem State.hostReset_pc (s : State) (params : Params) :
    (hostReset params s).pc = s.read16 Config.resetVector := rfl
@[simp] theorem State.hostReset_sp (s : State) (params : Params) :
    (hostReset params s).sp = params.spReset := rfl
@[simp] theorem State.hostReset_p (s : State) (params : Params) :
    (hostReset params s).p = params.pReset := rfl
@[simp] theorem State.hostReset_mem (s : State) (params : Params) :
    (hostReset params s).mem = s.mem := rfl
@[simp] theorem State.hostReset_es (s : State) (params : Params) :
    (hostReset params s).es = .fetching := rfl
@[simp] theorem State.hostReset_fault (s : State) (params : Params) :
    (hostReset params s).fault = none := rfl
@[simp] theorem State.hostReset_inFlight (s : State) (params : Params) :
    (hostReset params s).inFlight = s.inFlight := rfl

/-! #### setReg -/

@[simp] theorem State.setReg_pc (s : State) (r : Reg) (v : Byte) :
    (s.setReg r v).pc = s.pc := by cases r <;> rfl
@[simp] theorem State.setReg_sp (s : State) (r : Reg) (v : Byte) :
    (s.setReg r v).sp = s.sp := by cases r <;> rfl
@[simp] theorem State.setReg_p (s : State) (r : Reg) (v : Byte) :
    (s.setReg r v).p = s.p := by cases r <;> rfl
@[simp] theorem State.setReg_mem (s : State) (r : Reg) (v : Byte) :
    (s.setReg r v).mem = s.mem := by cases r <;> rfl
@[simp] theorem State.setReg_es (s : State) (r : Reg) (v : Byte) :
    (s.setReg r v).es = s.es := by cases r <;> rfl
@[simp] theorem State.setReg_fault (s : State) (r : Reg) (v : Byte) :
    (s.setReg r v).fault = s.fault := by cases r <;> rfl
@[simp] theorem State.setReg_inFlight (s : State) (r : Reg) (v : Byte) :
    (s.setReg r v).inFlight = s.inFlight := by cases r <;> rfl
@[simp] theorem State.setReg_A_a (s : State) (v : Byte) :
    (s.setReg .A v).a = v := rfl
@[simp] theorem State.setReg_A_x (s : State) (v : Byte) :
    (s.setReg .A v).x = s.x := rfl
@[simp] theorem State.setReg_A_y (s : State) (v : Byte) :
    (s.setReg .A v).y = s.y := rfl
@[simp] theorem State.reg_A (s : State) : s.reg .A = s.a := rfl
@[simp] theorem State.setReg_X_a (s : State) (v : Byte) :
    (s.setReg .X v).a = s.a := rfl
@[simp] theorem State.setReg_X_x (s : State) (v : Byte) :
    (s.setReg .X v).x = v := rfl
@[simp] theorem State.setReg_X_y (s : State) (v : Byte) :
    (s.setReg .X v).y = s.y := rfl
@[simp] theorem State.reg_X (s : State) : s.reg .X = s.x := rfl
@[simp] theorem State.setReg_Y_a (s : State) (v : Byte) :
    (s.setReg .Y v).a = s.a := rfl
@[simp] theorem State.setReg_Y_x (s : State) (v : Byte) :
    (s.setReg .Y v).x = s.x := rfl
@[simp] theorem State.setReg_Y_y (s : State) (v : Byte) :
    (s.setReg .Y v).y = v := rfl
@[simp] theorem State.reg_Y (s : State) : s.reg .Y = s.y := rfl

/-- A register reads as what was last written to it, and the others as before. -/
theorem State.reg_setReg (s : State) (r q : Reg) (v : Byte) :
    (s.setReg r v).reg q = if q = r then v else s.reg q := by cases r <;> cases q <;> rfl

/-! #### The end of a step -/

@[simp] theorem State.finish_inFlight (s : State) : s.finish.inFlight = none := rfl

/-- The advance writes `pc` and `es` alone, and leaves Fetching. -/
theorem State.advance_eq (s : State) : ∃ pc, s.advance = { s with pc := pc, es := .fetching } := by
  unfold State.advance
  split
  · exact ⟨_, rfl⟩
  · exact ⟨s.pc, rfl⟩

/-- The end of a step writes `pc`, `es` and the engine's holdings alone. -/
theorem State.finish_eq (s : State) :
    ∃ pc, s.finish =
      { s with pc := pc, es := if s.es = .dispatching then .fetching else s.es, inFlight := none } := by
  obtain ⟨pc, h⟩ := s.advance_eq
  by_cases hd : s.es = .dispatching
  · exact ⟨pc, by simp [State.finish, hd, h]⟩
  · exact ⟨s.pc, by simp [State.finish, hd]⟩

/-- The end of a step that is no longer Dispatching only drops what was in flight. -/
theorem State.finish_of_stopped (s : State) (h : s.es ≠ .dispatching) :
    s.finish = { s with inFlight := none } := by simp [State.finish, h]

/-- The end of a step of an instruction decoded at `pcD` with descriptor `d` (R104). -/
theorem State.finish_of_dispatching (s : State) (pcOp : Addr) (op : Byte) (d : Descriptor) (pcD : Addr)
    (h : s.es = .dispatching) (hi : s.inFlight = some ⟨pcOp, op, some ⟨d, pcD⟩⟩) :
    s.finish =
      { s with
        pc := if s.pc = pcD then s.pc + BitVec.ofNat 16 (d.len - 1) else s.pc
        es := .fetching
        inFlight := none } := by
  by_cases hp : s.pc = pcD <;> simp [State.finish, State.advance, h, hi, pcChanged, hp]

/-- The state an instruction rule runs in, from the fetch and the end of decode (R101, R102). -/
theorem State.fetch_latchDecoded (s : State) (d : Descriptor) :
    s.fetch.latchDecoded d =
      { s with
        pc := s.pc + 1
        es := .dispatching
        inFlight := some ⟨s.pc, s.read s.pc, some ⟨d, s.pc + 1⟩⟩ } := rfl

end Sys2Proof.Machine
end

