-- ==== Sys2Proof/Laws/Flags.lean ====
section
/-! SUPPORT. The laws of the status byte: a flag reads as what was last written to it and the seven others as
before; and what the shared flag updates put in each flag. -/
namespace Sys2Proof.Machine

@[simp] theorem getFlag_setFlag_same (p : Byte) (f : Flag) (v : Bool) : getFlag (setFlag p f v) f = v := by
  cases f <;> cases v <;> simp [getFlag, setFlag, Flag.bit]

theorem getFlag_setFlag (p : Byte) (f g : Flag) (v : Bool) :
    getFlag (setFlag p f v) g = if g = f then v else getFlag p g := by
  cases f <;> cases g <;> cases v <;> simp [getFlag, setFlag, Flag.bit]

theorem getFlag_setFlag_other (p : Byte) {f g : Flag} (v : Bool) (h : g ≠ f) :
    getFlag (setFlag p f v) g = getFlag p g := by rw [getFlag_setFlag, if_neg h]

@[simp] theorem State.flag_eq (s : State) (f : Flag) : s.flag f = getFlag s.p f := rfl

/-- A status byte is the eight flags. -/
theorem status_ext {p q : Byte} (h : ∀ f, getFlag p f = getFlag q f) : p = q := by
  refine BitVec.eq_of_getLsbD_eq fun i hi => ?_
  obtain rfl | rfl | rfl | rfl | rfl | rfl | rfl | rfl :
    i = 0 ∨ i = 1 ∨ i = 2 ∨ i = 3 ∨ i = 4 ∨ i = 5 ∨ i = 6 ∨ i = 7 := by omega
  exacts [h .C, h .Z, h .I, h .D, h .B, h .B2, h .V, h .N]

/-- What SetZN puts in each flag (R108). -/
theorem getFlag_znFlags (p v : Byte) (f : Flag) :
    getFlag (znFlags p v) f =
      match f with
      | .Z => v == 0
      | .N => v.getLsbD 7
      | _ => getFlag p f := by
  cases f <;> simp [znFlags, getFlag_setFlag]

/-- What the adder puts in each flag (R110). -/
theorem getFlag_addWithCarry (s : State) (m : Byte) (f : Flag) :
    getFlag (s.addWithCarry m).p f =
      match f with
      | .C => addCarry s.a m (s.flag .C)
      | .V => addOverflow s.a m (s.flag .C)
      | .Z => addResult s.a m (s.flag .C) == 0
      | .N => (addResult s.a m (s.flag .C)).getLsbD 7
      | _ => getFlag s.p f := by
  cases f <;> simp [State.addWithCarry, getFlag_znFlags, getFlag_setFlag]

/-- What BIT puts in each flag (R190). -/
theorem getFlag_setBitTest (s : State) (m : Byte) (f : Flag) :
    getFlag (s.setBitTest m).p f =
      match f with
      | .Z => (m &&& s.a) == 0
      | .V => m.getLsbD 6
      | .N => m.getLsbD 7
      | _ => getFlag s.p f := by
  cases f <;> simp [State.setBitTest, getFlag_setFlag]

/-- What a shift puts in each flag (R170 to R177). -/
theorem getFlag_setShiftFlags (s : State) (k : Shift) (v r : Byte) (f : Flag) :
    getFlag (s.setShiftFlags k v r).p f =
      match f with
      | .C => k.carryOut v
      | .Z => r == 0
      | .N => r.getLsbD 7
      | _ => getFlag s.p f := by
  cases f <;> simp [getFlag_znFlags, getFlag_setFlag]

end Sys2Proof.Machine
end

