-- ==== Sys2Proof/Laws/Memory.lean ====
section
/-! SUPPORT. The laws of memory: what a byte reads as after a write, and that every memory operation keeps the
canonical form. The read laws need no canonical form. -/
namespace Sys2Proof.Machine

theorem Memory.read_erase (m : Memory) (a b : Nat) :
    Memory.read (Memory.erase m a) b = if b = a then 0 else Memory.read m b := by
  induction m with
  | nil => simp [Memory.erase, Memory.read]
  | cons cell m ih =>
    obtain ⟨k, v⟩ := cell
    by_cases ha : a = k <;> by_cases hb : b = k <;> simp_all [Memory.erase, Memory.read]
    intro h; simp_all

theorem Memory.read_insert (m : Memory) (a b : Nat) (v : Byte) :
    Memory.read (Memory.insert m a v) b = if b = a then v else Memory.read m b := by
  induction m with
  | nil => simp [Memory.insert, Memory.read]
  | cons cell m ih =>
    obtain ⟨k, u⟩ := cell
    simp only [Memory.insert]
    split
    · simp [Memory.read]
    · split
      · rename_i h; subst h; by_cases hb : b = a <;> simp [Memory.read, hb]
      · by_cases hb : b = k <;> simp_all [Memory.read]
        intro h; simp_all

/-- A byte reads as what was last stored there, and every other byte as before. -/
theorem Memory.read_write (m : Memory) (a b : Nat) (v : Byte) :
    Memory.read (Memory.write m a v) b = if b = a then v else Memory.read m b := by
  unfold Memory.write
  split
  · rename_i h; simp [Memory.read_erase, h]
  · exact Memory.read_insert m a b v

/-- The canonical form from a lower address on follows from that of a higher one. -/
theorem Memory.wfFrom_mono {lo lo' : Nat} {m : Memory} (h : Memory.wfFrom lo' m = true) (hle : lo ≤ lo') :
    Memory.wfFrom lo m = true := by
  cases m with
  | nil => rfl
  | cons cell m =>
    simp only [Memory.wfFrom, Bool.and_eq_true, decide_eq_true_eq] at h ⊢
    exact ⟨⟨by omega, h.1.2⟩, h.2⟩

theorem Memory.wfFrom_erase {lo : Nat} {m : Memory} (a : Nat) (h : Memory.wfFrom lo m = true) :
    Memory.wfFrom lo (Memory.erase m a) = true := by
  induction m generalizing lo with
  | nil => rfl
  | cons cell m ih =>
    simp only [Memory.wfFrom, Bool.and_eq_true, decide_eq_true_eq] at h
    simp only [Memory.erase]
    split
    · exact Memory.wfFrom_mono (ih h.2) (by omega)
    · simp only [Memory.wfFrom, Bool.and_eq_true, decide_eq_true_eq]
      exact ⟨h.1, ih h.2⟩

theorem Memory.wfFrom_insert {lo : Nat} {m : Memory} {a : Nat} {v : Byte} (h : Memory.wfFrom lo m = true)
    (hlo : lo ≤ a) (ha : a < Config.memSize) (hv : v ≠ 0) : Memory.wfFrom lo (Memory.insert m a v) = true := by
  induction m generalizing lo with
  | nil => simpa [Memory.insert, Memory.wfFrom, hlo, ha] using hv
  | cons cell m ih =>
    simp only [Memory.wfFrom, Bool.and_eq_true, decide_eq_true_eq] at h
    simp only [Memory.insert]
    split
    · simp only [Memory.wfFrom, Bool.and_eq_true, decide_eq_true_eq]
      exact ⟨⟨hlo, ha, hv⟩, ⟨by omega, h.1.2⟩, h.2⟩
    · split
      · rename_i _ he
        subst he
        simp only [Memory.wfFrom, Bool.and_eq_true, decide_eq_true_eq]
        exact ⟨⟨hlo, ha, hv⟩, h.2⟩
      · simp only [Memory.wfFrom, Bool.and_eq_true, decide_eq_true_eq]
        exact ⟨h.1, ih h.2 (by omega)⟩

/-- A store keeps the canonical form. -/
theorem Memory.wf_write {m : Memory} {a : Nat} (v : Byte) (h : Memory.wf m = true) (ha : a < Config.memSize) :
    Memory.wf (Memory.write m a v) = true := by
  unfold Memory.write
  split
  · exact Memory.wfFrom_erase a h
  · rename_i hv; exact Memory.wfFrom_insert h (Nat.zero_le a) ha hv

/-- Every 16-bit address is an address of the memory (R40). -/
theorem addr_lt_memSize (addr : Addr) : addr.toNat < Config.memSize := addr.isLt

/-- `MemWrite(addr, 1, v)` keeps the canonical form. -/
theorem State.wf_write {s : State} (addr : Addr) (v : Byte) (h : Memory.wf s.mem = true) :
    Memory.wf (s.write addr v).mem = true := Memory.wf_write v h (addr_lt_memSize addr)

/-- Storing a sequence of bytes changes memory alone. -/
theorem State.writeBytes_eq (bytes : List Byte) (s : State) (addr : Addr) :
    s.writeBytes addr bytes = { s with mem := (s.writeBytes addr bytes).mem } := by
  induction bytes generalizing s addr with
  | nil => rfl
  | cons b bs ih => rw [State.writeBytes, ih]; rfl

/-- Storing a sequence of bytes keeps the canonical form. -/
theorem State.wf_writeBytes {s : State} (addr : Addr) (bytes : List Byte) (h : Memory.wf s.mem = true) :
    Memory.wf (s.writeBytes addr bytes).mem = true := by
  induction bytes generalizing s addr with
  | nil => exact h
  | cons b bs ih => exact ih (addr + 1) (State.wf_write addr b h)

/-- `MemWrite(addr, 2, v)` keeps the canonical form. -/
theorem State.wf_write16 {s : State} (addr v : Addr) (h : Memory.wf s.mem = true) :
    Memory.wf (s.write16 addr v).mem = true := State.wf_write _ _ (State.wf_write _ _ h)

/-- The memory right after reset is in canonical form. -/
theorem reset_memory_wf : Memory.wf State.reset.mem = true := rfl

end Sys2Proof.Machine
end

