-- ==== Sys2Proof/Laws/Ops.lean ====
section
/-! SUPPORT. One spec lemma per shared operation of Machine/: everything it can do, so that a proof about an
instruction cites it and unfolds nothing. -/
namespace Sys2Proof.Machine

/-- Every form but the tag None has an effective address (R51 to R60). -/
theorem Operand.ea_isSome (o : Operand) (s : State) (h : o ≠ .noMode) : ∃ ea, Operand.ea o s = some ea := by
  cases o <;> first | exact ⟨_, rfl⟩ | exact absurd rfl h

/-- Every form but the tag None has an operand byte (R111). -/
theorem Operand.value_isSome (o : Operand) (s : State) (h : o ≠ .noMode) : ∃ m, Operand.value o s = some m := by
  cases o <;> first | exact ⟨_, rfl⟩ | exact absurd rfl h

/-- `raise` with an instruction in flight (R225). -/
theorem raiseError_of_inFlight (code : ErrorCode) {s : State} {c : InFlight} (h : s.inFlight = some c) :
    raiseError code s = .next (s.enterFaulted code c) := by simp [raiseError, h]

/-- Everything `raise` can answer with a next state. -/
theorem raiseError_next {code : ErrorCode} {s t : State} (h : raiseError code s = .next t) :
    ∃ c, s.inFlight = some c ∧ t = s.enterFaulted code c := by
  unfold raiseError at h
  split at h
  · rename_i c hc; cases h; exact ⟨c, hc, rfl⟩
  · cases h

/-- Everything a rule that requires an address can answer with a next state (R111). -/
theorem withAddress_next {o : Operand} {s t : State} {rule : Addr → State} (h : withAddress o s rule = .next t) :
    (∃ ea, Operand.ea o s = some ea ∧ t = rule ea) ∨
    (o = .noMode ∧ ∃ c, s.inFlight = some c ∧ t = s.enterFaulted .invalidAddressingMode c) := by
  by_cases ho : o = .noMode
  · subst ho; exact .inr ⟨rfl, raiseError_next h⟩
  · obtain ⟨ea, hea⟩ := Operand.ea_isSome o s ho
    simp only [withAddress, hea] at h
    cases h; exact .inl ⟨ea, hea, rfl⟩

/-- Everything a rule that reads its operand can answer with a next state (R111). -/
theorem withValue_next {o : Operand} {s t : State} {rule : Byte → State} (h : withValue o s rule = .next t) :
    (∃ m, Operand.value o s = some m ∧ t = rule m) ∨
    (o = .noMode ∧ ∃ c, s.inFlight = some c ∧ t = s.enterFaulted .invalidAddressingMode c) := by
  by_cases ho : o = .noMode
  · subst ho; exact .inr ⟨rfl, raiseError_next h⟩
  · obtain ⟨m, hm⟩ := Operand.value_isSome o s ho
    simp only [withValue, hm] at h
    cases h; exact .inl ⟨m, hm, rfl⟩

theorem withAddress_of_ea {o : Operand} {s : State} {ea : Addr} (rule : Addr → State)
    (h : Operand.ea o s = some ea) : withAddress o s rule = .next (rule ea) := by simp [withAddress, h]

theorem withValue_of_value {o : Operand} {s : State} {m : Byte} (rule : Byte → State)
    (h : Operand.value o s = some m) : withValue o s rule = .next (rule m) := by simp [withValue, h]

/-- SetZN writes P alone. -/
theorem State.setZN_eq (s : State) (v : Byte) : s.setZN v = { s with p := znFlags s.p v } := rfl

/-- BIT's flag rule writes P alone. -/
theorem State.setBitTest_eq (s : State) (m : Byte) : s.setBitTest m = { s with p := (s.setBitTest m).p } := rfl

/-- A shift's flags write P alone. -/
theorem State.setShiftFlags_eq (s : State) (k : Shift) (v r : Byte) :
    s.setShiftFlags k v r = { s with p := (s.setShiftFlags k v r).p } := rfl

/-- The adder writes A and P alone. -/
theorem State.addWithCarry_eq (s : State) (m : Byte) :
    s.addWithCarry m = { s with a := addResult s.a m (s.flag .C), p := (s.addWithCarry m).p } := rfl

/-- The adder's 9-bit sum as a number (R110). -/
theorem sum9_toNat (a m : Byte) (c : Bool) : (sum9 a m c).toNat = a.toNat + m.toNat + c.toNat := by
  have ha := a.isLt
  have hm := m.isLt
  cases c <;> simp [sum9] <;> omega

/-- The adder's result as a number (R110). -/
theorem addResult_toNat (a m : Byte) (c : Bool) :
    (addResult a m c).toNat = (a.toNat + m.toNat + c.toNat) % 256 := by
  simp [addResult, BitVec.toNat_setWidth, sum9_toNat]

/-- `{h, l}` as a number (R7). -/
theorem word16_toNat (h l : Byte) : (word16 h l).toNat = h.toNat * 256 + l.toNat := by
  have := h.isLt
  have := l.isLt
  simp only [word16, BitVec.toNat_ofNat]
  omega

/-- The bytes of a 16-bit value as numbers (R44). -/
theorem loByte_toNat (w : Addr) : (loByte w).toNat = w.toNat % 256 := by
  simp [loByte, BitVec.extractLsb'_toNat]

theorem hiByte_toNat (w : Addr) : (hiByte w).toNat = w.toNat / 256 := by
  have := w.isLt
  simp [hiByte, BitVec.extractLsb'_toNat, Nat.shiftRight_eq_div_pow]
  omega

/-- The bytes of `{h, l}` (R7). -/
@[simp] theorem loByte_word16 (h l : Byte) : loByte (word16 h l) = l := by
  have := l.isLt
  apply BitVec.eq_of_toNat_eq
  rw [loByte_toNat, word16_toNat]
  omega

@[simp] theorem hiByte_word16 (h l : Byte) : hiByte (word16 h l) = h := by
  have := l.isLt
  apply BitVec.eq_of_toNat_eq
  rw [hiByte_toNat, word16_toNat]
  omega

/-- A 16-bit value is its two bytes (R7). -/
@[simp] theorem word16_hiByte_loByte (w : Addr) : word16 (hiByte w) (loByte w) = w := by
  apply BitVec.eq_of_toNat_eq
  rw [word16_toNat, hiByte_toNat, loByte_toNat]
  omega

/-- A signed byte survives its encoding (R73). -/
theorem offsetOfByte_byteOfOffset {off : Int} (h : offsetInRange off = true) :
    offsetOfByte (byteOfOffset off) = off := by
  simp only [offsetInRange, decide_eq_true_eq] at h
  simp [offsetOfByte, byteOfOffset, BitVec.toInt_ofInt, Int.bmod]
  omega

/-- An offset byte survives being read as a number (R73). -/
@[simp] theorem byteOfOffset_offsetOfByte (b : Byte) : byteOfOffset (offsetOfByte b) = b := by
  simp [byteOfOffset, offsetOfByte]

/-- The number read from an offset byte is in a signed byte's range (R73). -/
theorem offsetInRange_offsetOfByte (b : Byte) : offsetInRange (offsetOfByte b) = true := by
  have h1 := b.le_two_mul_toInt
  have h2 := b.two_mul_toInt_lt
  have h : -128 ≤ b.toInt ∧ b.toInt ≤ 127 := by omega
  simp [offsetInRange, offsetOfByte, h]

end Sys2Proof.Machine
end

