-- ==== Sys2Proof/Laws/Decode.lean ====
section
/-! SUPPORT. What the decoder answers on the bytes of an instruction. -/
namespace Sys2Proof

/-- Whatever the decoder reads has the opcode byte in its descriptor, is well formed, and encodes to as many of the
bytes read as it is long. -/
theorem decodeBytes_some {op b1 b2 : Byte} {i : Instr} (h : decodeBytes op b1 b2 = some i) :
    i.descriptor.opcode = op ∧ i.WellFormed = true ∧ encode i = [op, b1, b2].take i.len := by
  unfold decodeBytes at h
  split at h
  case h_152 => cases h
  all_goals
    cases h
    exact ⟨rfl, by first | rfl | exact Machine.offsetInRange_offsetOfByte _, by
      simp [encode, Instr.len, Descriptor.len, Instr.descriptor, Form.length]⟩

end Sys2Proof
end

