-- ==== Sys2Proof/Laws/Exec.lean ====
section
/-! SUPPORT. Dispatch by mnemonic: `exec` runs, for each mnemonic, one shared rule over the instruction's operand
(R103), so that no later proof splits the 151 arms again; and what every instruction keeps. -/
namespace Sys2Proof.Machine

/-- The rule of each mnemonic (R103: "dispatch is by `d.mnemonic` to the rule of that mnemonic in files 41 to 47",
and for the shifts by whether the form is the accumulator). -/
def ruleOf (i : Instr) (s : State) : Result :=
  let shiftRule (k : Shift) : Result :=
    if i.descriptor.form = .accumulator then shiftAccRule k s else shiftMemRule k i.operand s
  let branch (cond : Bool) : Result := branchRule cond (i.branchOffset.getD 0) s
  match i.mnemonic with
  | .LDA => loadRule .A i.operand s
  | .LDX => loadRule .X i.operand s
  | .LDY => loadRule .Y i.operand s
  | .STA => storeRule .A i.operand s
  | .STX => storeRule .X i.operand s
  | .STY => storeRule .Y i.operand s
  | .TAX => transferRule .A .X s
  | .TXA => transferRule .X .A s
  | .TAY => transferRule .A .Y s
  | .TYA => transferRule .Y .A s
  | .INC => incMemRule i.operand s
  | .INX => incRegRule .X s
  | .INY => incRegRule .Y s
  | .AND => bitwiseRule (· &&& ·) i.operand s
  | .ORA => bitwiseRule (· ||| ·) i.operand s
  | .EOR => bitwiseRule (· ^^^ ·) i.operand s
  | .ADC => adcRule i.operand s
  | .SBC => sbcRule i.operand s
  | .ASL => shiftRule .asl
  | .LSR => shiftRule .lsr
  | .ROL => shiftRule .rol
  | .ROR => shiftRule .ror
  | .BIT => bitRule i.operand s
  | .BCC => branch (!s.flag .C)
  | .BCS => branch (s.flag .C)
  | .BEQ => branch (s.flag .Z)
  | .BNE => branch (!s.flag .Z)
  | .BMI => branch (s.flag .N)
  | .BPL => branch (!s.flag .N)
  | .BVC => branch (!s.flag .V)
  | .BVS => branch (s.flag .V)
  | .NOP => .next s
  | .BRK => .next s.enterHalted
  | _ => unimplementedRule s

/-- Every arm of `exec` is its mnemonic's rule (R103). -/
theorem exec_eq_ruleOf (i : Instr) (s : State) : exec i s = ruleOf i s := by cases i <;> rfl

/-- The instructions whose rule requires an address carry an operand (R111; so error (c) is unreachable, R223). -/
theorem operand_ne_noMode (i : Instr)
    (h : i.mnemonic ∈ [.LDA, .LDX, .LDY, .STA, .STX, .STY, .INC, .AND, .ORA, .EOR, .ADC, .SBC, .BIT] ∨
      (i.mnemonic ∈ [.ASL, .LSR, .ROL, .ROR] ∧ i.descriptor.form ≠ .accumulator)) : i.operand ≠ .noMode := by
  cases i <;> simp [Instr.mnemonic, Instr.descriptor, Instr.operand] at h ⊢

/-- Everything an instruction can do, said once: one constructor per shared rule, with the instructions that run
it and the state it leaves. -/
inductive Effect (i : Instr) (s : State) : State → Prop
  | load (r : Reg) (m : Byte) (hi : (i.mnemonic, r) ∈ [(.LDA, .A), (.LDX, .X), (.LDY, .Y)])
      (hm : Operand.value i.operand s = some m) : Effect i s ((s.setReg r m).setZN m)
  | store (r : Reg) (ea : Addr) (hi : (i.mnemonic, r) ∈ [(.STA, .A), (.STX, .X), (.STY, .Y)])
      (hea : Operand.ea i.operand s = some ea) : Effect i s (s.write ea (s.reg r))
  | transfer (src dst : Reg)
      (hi : (i.mnemonic, src, dst) ∈ [(.TAX, .A, .X), (.TXA, .X, .A), (.TAY, .A, .Y), (.TYA, .Y, .A)]) :
      Effect i s ((s.setReg dst (s.reg src)).setZN (s.reg src))
  | incMem (ea : Addr) (hi : i.mnemonic = .INC) (hea : Operand.ea i.operand s = some ea) :
      Effect i s ((s.write ea (s.read ea + 1)).setZN (s.read ea + 1))
  | incReg (r : Reg) (hi : (i.mnemonic, r) ∈ [(.INX, .X), (.INY, .Y)]) :
      Effect i s ((s.setReg r (s.reg r + 1)).setZN (s.reg r + 1))
  | bitwise (m r : Byte) (hm : Operand.value i.operand s = some m)
      (hi : i.mnemonic = .AND ∧ r = s.a &&& m ∨ i.mnemonic = .ORA ∧ r = s.a ||| m ∨
        i.mnemonic = .EOR ∧ r = s.a ^^^ m) : Effect i s ((s.setReg .A r).setZN r)
  | add (m n : Byte) (hm : Operand.value i.operand s = some m)
      (hi : i.mnemonic = .ADC ∧ n = m ∨ i.mnemonic = .SBC ∧ n = negated m) : Effect i s (s.addWithCarry n)
  | shiftAcc (k : Shift) (hi : (i.mnemonic, k) ∈ [(.ASL, .asl), (.LSR, .lsr), (.ROL, .rol), (.ROR, .ror)])
      (hf : i.descriptor.form = .accumulator) :
      Effect i s ((s.setReg .A (k.result s.a (s.flag .C))).setShiftFlags k s.a (k.result s.a (s.flag .C)))
  | shiftMem (k : Shift) (ea : Addr)
      (hi : (i.mnemonic, k) ∈ [(.ASL, .asl), (.LSR, .lsr), (.ROL, .rol), (.ROR, .ror)])
      (hf : i.descriptor.form ≠ .accumulator) (hea : Operand.ea i.operand s = some ea) :
      Effect i s ((s.write ea (k.result (s.read ea) (s.flag .C))).setShiftFlags k (s.read ea)
        (k.result (s.read ea) (s.flag .C)))
  | bit (m : Byte) (hi : i.mnemonic = .BIT) (hm : Operand.value i.operand s = some m) : Effect i s (s.setBitTest m)
  | branch (target : Addr) (hi : i.mnemonic ∈ [.BCC, .BCS, .BEQ, .BNE, .BMI, .BPL, .BVC, .BVS]) :
      Effect i s (s.setPc target)
  | nop (hi : i.mnemonic = .NOP) : Effect i s s
  | brk (hi : i.mnemonic = .BRK) : Effect i s s.enterHalted
  | undispatched (c : InFlight) (hi : i.mnemonic.dispatched = false) (hc : s.inFlight = some c) :
      Effect i s (s.enterFaulted .unimplementedOpcode c)

/-- A rule that needs an address, on an instruction that carries an operand, takes it (R111). -/
theorem withAddress_next_of_operand {i : Instr} {s t : State} {rule : Addr → State} (ho : i.operand ≠ .noMode)
    (h : withAddress i.operand s rule = .next t) : ∃ ea, Operand.ea i.operand s = some ea ∧ t = rule ea :=
  (withAddress_next h).resolve_right fun hn => ho hn.1

/-- A rule that reads its operand, on an instruction that carries one, takes it (R111). -/
theorem withValue_next_of_operand {i : Instr} {s t : State} {rule : Byte → State} (ho : i.operand ≠ .noMode)
    (h : withValue i.operand s rule = .next t) : ∃ m, Operand.value i.operand s = some m ∧ t = rule m :=
  (withValue_next h).resolve_right fun hn => ho hn.1

/-- A branch rule moves `pc` or keeps it. -/
theorem branchRule_next {cond : Bool} {off : Int} {s t : State} (h : branchRule cond off s = .next t) :
    ∃ target, t = s.setPc target := by
  cases h
  cases cond
  · exact ⟨s.pc, rfl⟩
  · exact ⟨_, rfl⟩

/-- `exec` does what `Effect` lists and nothing else. -/
theorem exec_effect {i : Instr} {s t : State} (h : exec i s = .next t) : Effect i s t := by
  rw [exec_eq_ruleOf] at h
  cases hi : i.mnemonic <;> simp only [ruleOf, hi] at h
  case LDA => obtain ⟨m, hm, rfl⟩ := withValue_next_of_operand (operand_ne_noMode i (by simp [hi])) h; exact .load .A m (by simp [hi]) hm
  case LDX => obtain ⟨m, hm, rfl⟩ := withValue_next_of_operand (operand_ne_noMode i (by simp [hi])) h; exact .load .X m (by simp [hi]) hm
  case LDY => obtain ⟨m, hm, rfl⟩ := withValue_next_of_operand (operand_ne_noMode i (by simp [hi])) h; exact .load .Y m (by simp [hi]) hm
  case STA => obtain ⟨ea, he, rfl⟩ := withAddress_next_of_operand (operand_ne_noMode i (by simp [hi])) h; exact .store .A ea (by simp [hi]) he
  case STX => obtain ⟨ea, he, rfl⟩ := withAddress_next_of_operand (operand_ne_noMode i (by simp [hi])) h; exact .store .X ea (by simp [hi]) he
  case STY => obtain ⟨ea, he, rfl⟩ := withAddress_next_of_operand (operand_ne_noMode i (by simp [hi])) h; exact .store .Y ea (by simp [hi]) he
  case TAX => cases h; exact .transfer .A .X (by simp [hi])
  case TXA => cases h; exact .transfer .X .A (by simp [hi])
  case TAY => cases h; exact .transfer .A .Y (by simp [hi])
  case TYA => cases h; exact .transfer .Y .A (by simp [hi])
  case INC => obtain ⟨ea, he, rfl⟩ := withAddress_next_of_operand (operand_ne_noMode i (by simp [hi])) h; exact .incMem ea hi he
  case INX => cases h; exact .incReg .X (by simp [hi])
  case INY => cases h; exact .incReg .Y (by simp [hi])
  case AND => obtain ⟨m, hm, rfl⟩ := withValue_next_of_operand (operand_ne_noMode i (by simp [hi])) h; exact .bitwise m _ hm (by simp [hi])
  case ORA => obtain ⟨m, hm, rfl⟩ := withValue_next_of_operand (operand_ne_noMode i (by simp [hi])) h; exact .bitwise m _ hm (by simp [hi])
  case EOR => obtain ⟨m, hm, rfl⟩ := withValue_next_of_operand (operand_ne_noMode i (by simp [hi])) h; exact .bitwise m _ hm (by simp [hi])
  case ADC => obtain ⟨m, hm, rfl⟩ := withValue_next_of_operand (operand_ne_noMode i (by simp [hi])) h; exact .add m m hm (by simp [hi])
  case SBC => obtain ⟨m, hm, rfl⟩ := withValue_next_of_operand (operand_ne_noMode i (by simp [hi])) h; exact .add m _ hm (by simp [hi])
  case BIT => obtain ⟨m, hm, rfl⟩ := withValue_next_of_operand (operand_ne_noMode i (by simp [hi])) h; exact .bit m hi hm
  case NOP => cases h; exact .nop hi
  case BRK => cases h; exact .brk hi
  case ASL | LSR | ROL | ROR =>
    split at h
    · cases h; exact .shiftAcc _ (by simp [hi]) ‹_›
    · rename_i hf
      obtain ⟨ea, he, rfl⟩ := withAddress_next_of_operand (operand_ne_noMode i (by simp [hi, hf])) h
      exact .shiftMem _ ea (by simp [hi]) hf he
  case BCC | BCS | BEQ | BNE | BMI | BPL | BVC | BVS =>
    obtain ⟨target, rfl⟩ := branchRule_next h
    exact .branch target (by simp [hi])
  all_goals
    obtain ⟨c, hc, rfl⟩ := raiseError_next h
    exact .undispatched c (by simp [hi, Mnemonic.dispatched]) hc

/-- With an instruction in flight, every instruction answers a next state. -/
theorem exec_completes (i : Instr) {s : State} {c : InFlight} (hc : s.inFlight = some c) : ∃ t, exec i s = .next t := by
  have value (ho : i.operand ≠ .noMode) (rule : Byte → State) : ∃ t, withValue i.operand s rule = .next t := by
    obtain ⟨m, hm⟩ := Operand.value_isSome i.operand s ho
    exact ⟨_, withValue_of_value rule hm⟩
  have address (ho : i.operand ≠ .noMode) (rule : Addr → State) : ∃ t, withAddress i.operand s rule = .next t := by
    obtain ⟨ea, hea⟩ := Operand.ea_isSome i.operand s ho
    exact ⟨_, withAddress_of_ea rule hea⟩
  rw [exec_eq_ruleOf]
  cases hi : i.mnemonic <;> simp only [ruleOf, hi]
  case LDA | LDX | LDY | AND | ORA | EOR | ADC | SBC | BIT => exact value (operand_ne_noMode i (by simp [hi])) _
  case STA | STX | STY | INC => exact address (operand_ne_noMode i (by simp [hi])) _
  case ASL | LSR | ROL | ROR =>
    split
    · exact ⟨_, rfl⟩
    · rename_i hf; exact address (operand_ne_noMode i (by simp [hi, hf])) _
  case TAX | TXA | TAY | TYA | INX | INY | NOP | BRK => exact ⟨_, rfl⟩
  case BCC | BCS | BEQ | BNE | BMI | BPL | BVC | BVS => exact ⟨_, rfl⟩
  all_goals exact ⟨_, raiseError_of_inFlight _ hc⟩

/-- Every instruction keeps sp and what is in flight (R24, R34). -/
theorem exec_keeps {i : Instr} {s t : State} (h : exec i s = .next t) : t.sp = s.sp ∧ t.inFlight = s.inFlight := by
  cases exec_effect h <;> simp

/-- Every instruction keeps memory's canonical form. -/
theorem exec_keeps_wf {i : Instr} {s t : State} (h : exec i s = .next t) (hw : Memory.wf s.mem = true) :
    Memory.wf t.mem = true := by
  cases exec_effect h
  case store => exact State.wf_write _ _ hw
  case incMem => exact State.wf_write _ _ hw
  case shiftMem => exact State.wf_write _ _ hw
  all_goals simpa using hw

/-- The control state after an instruction rule: Halted after BRK, Faulted after an undispatched instruction,
otherwise as before. -/
theorem exec_engineState {i : Instr} {s t : State} (h : exec i s = .next t) :
    (i.mnemonic = .BRK ∧ t.es = .halted ∧ t.fault = s.fault) ∨
    (i.mnemonic.dispatched = false ∧ t.es = .faulted ∧ t.fault.isSome = true) ∨
    (i.mnemonic ≠ .BRK ∧ i.mnemonic.dispatched = true ∧ t.es = s.es ∧ t.fault = s.fault) := by
  cases exec_effect h
  case brk hi => exact .inl ⟨hi, rfl, rfl⟩
  case undispatched c hi hc => exact .inr (.inl ⟨hi, rfl, rfl⟩)
  all_goals
    refine .inr (.inr ⟨?_, ?_, by simp, by simp⟩) <;>
    · clear h
      generalize i.mnemonic = mn at *
      cases mn <;> simp_all [Mnemonic.dispatched]

end Sys2Proof.Machine
end

