-- ==== Sys2Proof/Laws/PerInstr.lean ====
section
/-! SUPPORT. What is said of every instruction as syntax, one lemma per constructor (LAWS.json). -/
namespace Sys2Proof.Laws

/-- The shape of an encoding: as many bytes as the table's length, the table's opcode byte first, and that byte
decodes, whatever follows it, to an instruction of the same row. -/
def EncodingShape.Statement (i : Instr) : Prop :=
  (encode i).length = i.len ∧ (encode i).head? = some i.descriptor.opcode ∧
  ∀ b1 b2 : Byte, (decodeBytes i.descriptor.opcode b1 b2).map Instr.descriptor = some i.descriptor


theorem EncodingShape.ldaIndX (b : Byte) : EncodingShape.Statement (.ldaIndX b) := ⟨rfl, rfl, fun _ _ => rfl⟩
theorem EncodingShape.ldaZp (b : Byte) : EncodingShape.Statement (.ldaZp b) := ⟨rfl, rfl, fun _ _ => rfl⟩
theorem EncodingShape.ldaImm (v : Byte) : EncodingShape.Statement (.ldaImm v) := ⟨rfl, rfl, fun _ _ => rfl⟩
theorem EncodingShape.ldaAbs (w : Addr) : EncodingShape.Statement (.ldaAbs w) := ⟨rfl, rfl, fun _ _ => rfl⟩
theorem EncodingShape.ldaIndY (b : Byte) : EncodingShape.Statement (.ldaIndY b) := ⟨rfl, rfl, fun _ _ => rfl⟩
theorem EncodingShape.ldaZpX (b : Byte) : EncodingShape.Statement (.ldaZpX b) := ⟨rfl, rfl, fun _ _ => rfl⟩
theorem EncodingShape.ldaAbsY (w : Addr) : EncodingShape.Statement (.ldaAbsY w) := ⟨rfl, rfl, fun _ _ => rfl⟩
theorem EncodingShape.ldaAbsX (w : Addr) : EncodingShape.Statement (.ldaAbsX w) := ⟨rfl, rfl, fun _ _ => rfl⟩
theorem EncodingShape.ldxImm (v : Byte) : EncodingShape.Statement (.ldxImm v) := ⟨rfl, rfl, fun _ _ => rfl⟩
theorem EncodingShape.ldxZp (b : Byte) : EncodingShape.Statement (.ldxZp b) := ⟨rfl, rfl, fun _ _ => rfl⟩
theorem EncodingShape.ldxAbs (w : Addr) : EncodingShape.Statement (.ldxAbs w) := ⟨rfl, rfl, fun _ _ => rfl⟩
theorem EncodingShape.ldxZpY (b : Byte) : EncodingShape.Statement (.ldxZpY b) := ⟨rfl, rfl, fun _ _ => rfl⟩
theorem EncodingShape.ldxAbsY (w : Addr) : EncodingShape.Statement (.ldxAbsY w) := ⟨rfl, rfl, fun _ _ => rfl⟩
theorem EncodingShape.ldyImm (v : Byte) : EncodingShape.Statement (.ldyImm v) := ⟨rfl, rfl, fun _ _ => rfl⟩
theorem EncodingShape.ldyZp (b : Byte) : EncodingShape.Statement (.ldyZp b) := ⟨rfl, rfl, fun _ _ => rfl⟩
theorem EncodingShape.ldyAbs (w : Addr) : EncodingShape.Statement (.ldyAbs w) := ⟨rfl, rfl, fun _ _ => rfl⟩
theorem EncodingShape.ldyZpX (b : Byte) : EncodingShape.Statement (.ldyZpX b) := ⟨rfl, rfl, fun _ _ => rfl⟩
theorem EncodingShape.ldyAbsX (w : Addr) : EncodingShape.Statement (.ldyAbsX w) := ⟨rfl, rfl, fun _ _ => rfl⟩
theorem EncodingShape.staIndX (b : Byte) : EncodingShape.Statement (.staIndX b) := ⟨rfl, rfl, fun _ _ => rfl⟩
theorem EncodingShape.staZp (b : Byte) : EncodingShape.Statement (.staZp b) := ⟨rfl, rfl, fun _ _ => rfl⟩
theorem EncodingShape.staAbs (w : Addr) : EncodingShape.Statement (.staAbs w) := ⟨rfl, rfl, fun _ _ => rfl⟩
theorem EncodingShape.staIndY (b : Byte) : EncodingShape.Statement (.staIndY b) := ⟨rfl, rfl, fun _ _ => rfl⟩
theorem EncodingShape.staZpX (b : Byte) : EncodingShape.Statement (.staZpX b) := ⟨rfl, rfl, fun _ _ => rfl⟩
theorem EncodingShape.staAbsY (w : Addr) : EncodingShape.Statement (.staAbsY w) := ⟨rfl, rfl, fun _ _ => rfl⟩
theorem EncodingShape.staAbsX (w : Addr) : EncodingShape.Statement (.staAbsX w) := ⟨rfl, rfl, fun _ _ => rfl⟩
theorem EncodingShape.stxZp (b : Byte) : EncodingShape.Statement (.stxZp b) := ⟨rfl, rfl, fun _ _ => rfl⟩
theorem EncodingShape.stxAbs (w : Addr) : EncodingShape.Statement (.stxAbs w) := ⟨rfl, rfl, fun _ _ => rfl⟩
theorem EncodingShape.stxZpY (b : Byte) : EncodingShape.Statement (.stxZpY b) := ⟨rfl, rfl, fun _ _ => rfl⟩
theorem EncodingShape.styZp (b : Byte) : EncodingShape.Statement (.styZp b) := ⟨rfl, rfl, fun _ _ => rfl⟩
theorem EncodingShape.styAbs (w : Addr) : EncodingShape.Statement (.styAbs w) := ⟨rfl, rfl, fun _ _ => rfl⟩
theorem EncodingShape.styZpX (b : Byte) : EncodingShape.Statement (.styZpX b) := ⟨rfl, rfl, fun _ _ => rfl⟩
theorem EncodingShape.tax : EncodingShape.Statement (.tax) := ⟨rfl, rfl, fun _ _ => rfl⟩
theorem EncodingShape.txa : EncodingShape.Statement (.txa) := ⟨rfl, rfl, fun _ _ => rfl⟩
theorem EncodingShape.tay : EncodingShape.Statement (.tay) := ⟨rfl, rfl, fun _ _ => rfl⟩
theorem EncodingShape.tya : EncodingShape.Statement (.tya) := ⟨rfl, rfl, fun _ _ => rfl⟩
theorem EncodingShape.incZp (b : Byte) : EncodingShape.Statement (.incZp b) := ⟨rfl, rfl, fun _ _ => rfl⟩
theorem EncodingShape.incAbs (w : Addr) : EncodingShape.Statement (.incAbs w) := ⟨rfl, rfl, fun _ _ => rfl⟩
theorem EncodingShape.incZpX (b : Byte) : EncodingShape.Statement (.incZpX b) := ⟨rfl, rfl, fun _ _ => rfl⟩
theorem EncodingShape.incAbsX (w : Addr) : EncodingShape.Statement (.incAbsX w) := ⟨rfl, rfl, fun _ _ => rfl⟩
theorem EncodingShape.inx : EncodingShape.Statement (.inx) := ⟨rfl, rfl, fun _ _ => rfl⟩
theorem EncodingShape.iny : EncodingShape.Statement (.iny) := ⟨rfl, rfl, fun _ _ => rfl⟩
theorem EncodingShape.andIndX (b : Byte) : EncodingShape.Statement (.andIndX b) := ⟨rfl, rfl, fun _ _ => rfl⟩
theorem EncodingShape.andZp (b : Byte) : EncodingShape.Statement (.andZp b) := ⟨rfl, rfl, fun _ _ => rfl⟩
theorem EncodingShape.andImm (v : Byte) : EncodingShape.Statement (.andImm v) := ⟨rfl, rfl, fun _ _ => rfl⟩
theorem EncodingShape.andAbs (w : Addr) : EncodingShape.Statement (.andAbs w) := ⟨rfl, rfl, fun _ _ => rfl⟩
theorem EncodingShape.andIndY (b : Byte) : EncodingShape.Statement (.andIndY b) := ⟨rfl, rfl, fun _ _ => rfl⟩
theorem EncodingShape.andZpX (b : Byte) : EncodingShape.Statement (.andZpX b) := ⟨rfl, rfl, fun _ _ => rfl⟩
theorem EncodingShape.andAbsY (w : Addr) : EncodingShape.Statement (.andAbsY w) := ⟨rfl, rfl, fun _ _ => rfl⟩
theorem EncodingShape.andAbsX (w : Addr) : EncodingShape.Statement (.andAbsX w) := ⟨rfl, rfl, fun _ _ => rfl⟩
theorem EncodingShape.oraIndX (b : Byte) : EncodingShape.Statement (.oraIndX b) := ⟨rfl, rfl, fun _ _ => rfl⟩
theorem EncodingShape.oraZp (b : Byte) : EncodingShape.Statement (.oraZp b) := ⟨rfl, rfl, fun _ _ => rfl⟩
theorem EncodingShape.oraImm (v : Byte) : EncodingShape.Statement (.oraImm v) := ⟨rfl, rfl, fun _ _ => rfl⟩
theorem EncodingShape.oraAbs (w : Addr) : EncodingShape.Statement (.oraAbs w) := ⟨rfl, rfl, fun _ _ => rfl⟩
theorem EncodingShape.oraIndY (b : Byte) : EncodingShape.Statement (.oraIndY b) := ⟨rfl, rfl, fun _ _ => rfl⟩
theorem EncodingShape.oraZpX (b : Byte) : EncodingShape.Statement (.oraZpX b) := ⟨rfl, rfl, fun _ _ => rfl⟩
theorem EncodingShape.oraAbsY (w : Addr) : EncodingShape.Statement (.oraAbsY w) := ⟨rfl, rfl, fun _ _ => rfl⟩
theorem EncodingShape.oraAbsX (w : Addr) : EncodingShape.Statement (.oraAbsX w) := ⟨rfl, rfl, fun _ _ => rfl⟩
theorem EncodingShape.eorIndX (b : Byte) : EncodingShape.Statement (.eorIndX b) := ⟨rfl, rfl, fun _ _ => rfl⟩
theorem EncodingShape.eorZp (b : Byte) : EncodingShape.Statement (.eorZp b) := ⟨rfl, rfl, fun _ _ => rfl⟩
theorem EncodingShape.eorImm (v : Byte) : EncodingShape.Statement (.eorImm v) := ⟨rfl, rfl, fun _ _ => rfl⟩
theorem EncodingShape.eorAbs (w : Addr) : EncodingShape.Statement (.eorAbs w) := ⟨rfl, rfl, fun _ _ => rfl⟩
theorem EncodingShape.eorIndY (b : Byte) : EncodingShape.Statement (.eorIndY b) := ⟨rfl, rfl, fun _ _ => rfl⟩
theorem EncodingShape.eorZpX (b : Byte) : EncodingShape.Statement (.eorZpX b) := ⟨rfl, rfl, fun _ _ => rfl⟩
theorem EncodingShape.eorAbsY (w : Addr) : EncodingShape.Statement (.eorAbsY w) := ⟨rfl, rfl, fun _ _ => rfl⟩
theorem EncodingShape.eorAbsX (w : Addr) : EncodingShape.Statement (.eorAbsX w) := ⟨rfl, rfl, fun _ _ => rfl⟩
theorem EncodingShape.adcIndX (b : Byte) : EncodingShape.Statement (.adcIndX b) := ⟨rfl, rfl, fun _ _ => rfl⟩
theorem EncodingShape.adcZp (b : Byte) : EncodingShape.Statement (.adcZp b) := ⟨rfl, rfl, fun _ _ => rfl⟩
theorem EncodingShape.adcImm (v : Byte) : EncodingShape.Statement (.adcImm v) := ⟨rfl, rfl, fun _ _ => rfl⟩
theorem EncodingShape.adcAbs (w : Addr) : EncodingShape.Statement (.adcAbs w) := ⟨rfl, rfl, fun _ _ => rfl⟩
theorem EncodingShape.adcIndY (b : Byte) : EncodingShape.Statement (.adcIndY b) := ⟨rfl, rfl, fun _ _ => rfl⟩
theorem EncodingShape.adcZpX (b : Byte) : EncodingShape.Statement (.adcZpX b) := ⟨rfl, rfl, fun _ _ => rfl⟩
theorem EncodingShape.adcAbsY (w : Addr) : EncodingShape.Statement (.adcAbsY w) := ⟨rfl, rfl, fun _ _ => rfl⟩
theorem EncodingShape.adcAbsX (w : Addr) : EncodingShape.Statement (.adcAbsX w) := ⟨rfl, rfl, fun _ _ => rfl⟩
theorem EncodingShape.sbcIndX (b : Byte) : EncodingShape.Statement (.sbcIndX b) := ⟨rfl, rfl, fun _ _ => rfl⟩
theorem EncodingShape.sbcZp (b : Byte) : EncodingShape.Statement (.sbcZp b) := ⟨rfl, rfl, fun _ _ => rfl⟩
theorem EncodingShape.sbcImm (v : Byte) : EncodingShape.Statement (.sbcImm v) := ⟨rfl, rfl, fun _ _ => rfl⟩
theorem EncodingShape.sbcAbs (w : Addr) : EncodingShape.Statement (.sbcAbs w) := ⟨rfl, rfl, fun _ _ => rfl⟩
theorem EncodingShape.sbcIndY (b : Byte) : EncodingShape.Statement (.sbcIndY b) := ⟨rfl, rfl, fun _ _ => rfl⟩
theorem EncodingShape.sbcZpX (b : Byte) : EncodingShape.Statement (.sbcZpX b) := ⟨rfl, rfl, fun _ _ => rfl⟩
theorem EncodingShape.sbcAbsY (w : Addr) : EncodingShape.Statement (.sbcAbsY w) := ⟨rfl, rfl, fun _ _ => rfl⟩
theorem EncodingShape.sbcAbsX (w : Addr) : EncodingShape.Statement (.sbcAbsX w) := ⟨rfl, rfl, fun _ _ => rfl⟩
theorem EncodingShape.aslZp (b : Byte) : EncodingShape.Statement (.aslZp b) := ⟨rfl, rfl, fun _ _ => rfl⟩
theorem EncodingShape.aslA : EncodingShape.Statement (.aslA) := ⟨rfl, rfl, fun _ _ => rfl⟩
theorem EncodingShape.aslAbs (w : Addr) : EncodingShape.Statement (.aslAbs w) := ⟨rfl, rfl, fun _ _ => rfl⟩
theorem EncodingShape.aslZpX (b : Byte) : EncodingShape.Statement (.aslZpX b) := ⟨rfl, rfl, fun _ _ => rfl⟩
theorem EncodingShape.aslAbsX (w : Addr) : EncodingShape.Statement (.aslAbsX w) := ⟨rfl, rfl, fun _ _ => rfl⟩
theorem EncodingShape.lsrZp (b : Byte) : EncodingShape.Statement (.lsrZp b) := ⟨rfl, rfl, fun _ _ => rfl⟩
theorem EncodingShape.lsrA : EncodingShape.Statement (.lsrA) := ⟨rfl, rfl, fun _ _ => rfl⟩
theorem EncodingShape.lsrAbs (w : Addr) : EncodingShape.Statement (.lsrAbs w) := ⟨rfl, rfl, fun _ _ => rfl⟩
theorem EncodingShape.lsrZpX (b : Byte) : EncodingShape.Statement (.lsrZpX b) := ⟨rfl, rfl, fun _ _ => rfl⟩
theorem EncodingShape.lsrAbsX (w : Addr) : EncodingShape.Statement (.lsrAbsX w) := ⟨rfl, rfl, fun _ _ => rfl⟩
theorem EncodingShape.rolZp (b : Byte) : EncodingShape.Statement (.rolZp b) := ⟨rfl, rfl, fun _ _ => rfl⟩
theorem EncodingShape.rolA : EncodingShape.Statement (.rolA) := ⟨rfl, rfl, fun _ _ => rfl⟩
theorem EncodingShape.rolAbs (w : Addr) : EncodingShape.Statement (.rolAbs w) := ⟨rfl, rfl, fun _ _ => rfl⟩
theorem EncodingShape.rolZpX (b : Byte) : EncodingShape.Statement (.rolZpX b) := ⟨rfl, rfl, fun _ _ => rfl⟩
theorem EncodingShape.rolAbsX (w : Addr) : EncodingShape.Statement (.rolAbsX w) := ⟨rfl, rfl, fun _ _ => rfl⟩
theorem EncodingShape.rorZp (b : Byte) : EncodingShape.Statement (.rorZp b) := ⟨rfl, rfl, fun _ _ => rfl⟩
theorem EncodingShape.rorA : EncodingShape.Statement (.rorA) := ⟨rfl, rfl, fun _ _ => rfl⟩
theorem EncodingShape.rorAbs (w : Addr) : EncodingShape.Statement (.rorAbs w) := ⟨rfl, rfl, fun _ _ => rfl⟩
theorem EncodingShape.rorZpX (b : Byte) : EncodingShape.Statement (.rorZpX b) := ⟨rfl, rfl, fun _ _ => rfl⟩
theorem EncodingShape.rorAbsX (w : Addr) : EncodingShape.Statement (.rorAbsX w) := ⟨rfl, rfl, fun _ _ => rfl⟩
theorem EncodingShape.bitZp (b : Byte) : EncodingShape.Statement (.bitZp b) := ⟨rfl, rfl, fun _ _ => rfl⟩
theorem EncodingShape.bitAbs (w : Addr) : EncodingShape.Statement (.bitAbs w) := ⟨rfl, rfl, fun _ _ => rfl⟩
theorem EncodingShape.bcc (off : Int) : EncodingShape.Statement (.bcc off) := ⟨rfl, rfl, fun _ _ => rfl⟩
theorem EncodingShape.bcs (off : Int) : EncodingShape.Statement (.bcs off) := ⟨rfl, rfl, fun _ _ => rfl⟩
theorem EncodingShape.beq (off : Int) : EncodingShape.Statement (.beq off) := ⟨rfl, rfl, fun _ _ => rfl⟩
theorem EncodingShape.bne (off : Int) : EncodingShape.Statement (.bne off) := ⟨rfl, rfl, fun _ _ => rfl⟩
theorem EncodingShape.bmi (off : Int) : EncodingShape.Statement (.bmi off) := ⟨rfl, rfl, fun _ _ => rfl⟩
theorem EncodingShape.bpl (off : Int) : EncodingShape.Statement (.bpl off) := ⟨rfl, rfl, fun _ _ => rfl⟩
theorem EncodingShape.bvc (off : Int) : EncodingShape.Statement (.bvc off) := ⟨rfl, rfl, fun _ _ => rfl⟩
theorem EncodingShape.bvs (off : Int) : EncodingShape.Statement (.bvs off) := ⟨rfl, rfl, fun _ _ => rfl⟩
theorem EncodingShape.nop : EncodingShape.Statement (.nop) := ⟨rfl, rfl, fun _ _ => rfl⟩
theorem EncodingShape.brk : EncodingShape.Statement (.brk) := ⟨rfl, rfl, fun _ _ => rfl⟩
theorem EncodingShape.cmpIndX (b : Byte) : EncodingShape.Statement (.cmpIndX b) := ⟨rfl, rfl, fun _ _ => rfl⟩
theorem EncodingShape.cmpZp (b : Byte) : EncodingShape.Statement (.cmpZp b) := ⟨rfl, rfl, fun _ _ => rfl⟩
theorem EncodingShape.cmpImm (v : Byte) : EncodingShape.Statement (.cmpImm v) := ⟨rfl, rfl, fun _ _ => rfl⟩
theorem EncodingShape.cmpAbs (w : Addr) : EncodingShape.Statement (.cmpAbs w) := ⟨rfl, rfl, fun _ _ => rfl⟩
theorem EncodingShape.cmpIndY (b : Byte) : EncodingShape.Statement (.cmpIndY b) := ⟨rfl, rfl, fun _ _ => rfl⟩
theorem EncodingShape.cmpZpX (b : Byte) : EncodingShape.Statement (.cmpZpX b) := ⟨rfl, rfl, fun _ _ => rfl⟩
theorem EncodingShape.cmpAbsY (w : Addr) : EncodingShape.Statement (.cmpAbsY w) := ⟨rfl, rfl, fun _ _ => rfl⟩
theorem EncodingShape.cmpAbsX (w : Addr) : EncodingShape.Statement (.cmpAbsX w) := ⟨rfl, rfl, fun _ _ => rfl⟩
theorem EncodingShape.cpxImm (v : Byte) : EncodingShape.Statement (.cpxImm v) := ⟨rfl, rfl, fun _ _ => rfl⟩
theorem EncodingShape.cpxZp (b : Byte) : EncodingShape.Statement (.cpxZp b) := ⟨rfl, rfl, fun _ _ => rfl⟩
theorem EncodingShape.cpxAbs (w : Addr) : EncodingShape.Statement (.cpxAbs w) := ⟨rfl, rfl, fun _ _ => rfl⟩
theorem EncodingShape.cpyImm (v : Byte) : EncodingShape.Statement (.cpyImm v) := ⟨rfl, rfl, fun _ _ => rfl⟩
theorem EncodingShape.cpyZp (b : Byte) : EncodingShape.Statement (.cpyZp b) := ⟨rfl, rfl, fun _ _ => rfl⟩
theorem EncodingShape.cpyAbs (w : Addr) : EncodingShape.Statement (.cpyAbs w) := ⟨rfl, rfl, fun _ _ => rfl⟩
theorem EncodingShape.decZp (b : Byte) : EncodingShape.Statement (.decZp b) := ⟨rfl, rfl, fun _ _ => rfl⟩
theorem EncodingShape.decAbs (w : Addr) : EncodingShape.Statement (.decAbs w) := ⟨rfl, rfl, fun _ _ => rfl⟩
theorem EncodingShape.decZpX (b : Byte) : EncodingShape.Statement (.decZpX b) := ⟨rfl, rfl, fun _ _ => rfl⟩
theorem EncodingShape.decAbsX (w : Addr) : EncodingShape.Statement (.decAbsX w) := ⟨rfl, rfl, fun _ _ => rfl⟩
theorem EncodingShape.dex : EncodingShape.Statement (.dex) := ⟨rfl, rfl, fun _ _ => rfl⟩
theorem EncodingShape.dey : EncodingShape.Statement (.dey) := ⟨rfl, rfl, fun _ _ => rfl⟩
theorem EncodingShape.jmpAbs (w : Addr) : EncodingShape.Statement (.jmpAbs w) := ⟨rfl, rfl, fun _ _ => rfl⟩
theorem EncodingShape.jmpInd (w : Addr) : EncodingShape.Statement (.jmpInd w) := ⟨rfl, rfl, fun _ _ => rfl⟩
theorem EncodingShape.jsrAbs (w : Addr) : EncodingShape.Statement (.jsrAbs w) := ⟨rfl, rfl, fun _ _ => rfl⟩
theorem EncodingShape.rts : EncodingShape.Statement (.rts) := ⟨rfl, rfl, fun _ _ => rfl⟩
theorem EncodingShape.rti : EncodingShape.Statement (.rti) := ⟨rfl, rfl, fun _ _ => rfl⟩
theorem EncodingShape.pha : EncodingShape.Statement (.pha) := ⟨rfl, rfl, fun _ _ => rfl⟩
theorem EncodingShape.php : EncodingShape.Statement (.php) := ⟨rfl, rfl, fun _ _ => rfl⟩
theorem EncodingShape.pla : EncodingShape.Statement (.pla) := ⟨rfl, rfl, fun _ _ => rfl⟩
theorem EncodingShape.plp : EncodingShape.Statement (.plp) := ⟨rfl, rfl, fun _ _ => rfl⟩
theorem EncodingShape.clc : EncodingShape.Statement (.clc) := ⟨rfl, rfl, fun _ _ => rfl⟩
theorem EncodingShape.cld : EncodingShape.Statement (.cld) := ⟨rfl, rfl, fun _ _ => rfl⟩
theorem EncodingShape.cli : EncodingShape.Statement (.cli) := ⟨rfl, rfl, fun _ _ => rfl⟩
theorem EncodingShape.clv : EncodingShape.Statement (.clv) := ⟨rfl, rfl, fun _ _ => rfl⟩
theorem EncodingShape.sec : EncodingShape.Statement (.sec) := ⟨rfl, rfl, fun _ _ => rfl⟩
theorem EncodingShape.sed : EncodingShape.Statement (.sed) := ⟨rfl, rfl, fun _ _ => rfl⟩
theorem EncodingShape.sei : EncodingShape.Statement (.sei) := ⟨rfl, rfl, fun _ _ => rfl⟩
theorem EncodingShape.tsx : EncodingShape.Statement (.tsx) := ⟨rfl, rfl, fun _ _ => rfl⟩
theorem EncodingShape.txs : EncodingShape.Statement (.txs) := ⟨rfl, rfl, fun _ _ => rfl⟩

end Sys2Proof.Laws
end

