-- ==== Sys2Proof/Laws/Step.lean ====
section
/-! SUPPORT. What one step can do, said once. -/
namespace Sys2Proof.Machine

/-- A step from Fetching on a byte absent from the table (R102, R225). -/
theorem step_of_absent {s : State} (hf : s.es = .fetching) (hi : s.instrAt s.pc = none) :
    step s = .next
      { s with
        pc := s.pc + 1
        es := .faulted
        fault := some ⟨.unrecognizedOpcode, s.pc, s.read s.pc⟩
        inFlight := none } := by
  simp only [step, hf, runInstruction, hi, raiseError, State.fetch, finishStep]
  simp [State.finish, State.enterFaulted]

/-- A step from Fetching on a byte of the table (R101 to R105). -/
theorem step_of_instr {s : State} {i : Instr} (hf : s.es = .fetching) (hi : s.instrAt s.pc = some i) :
    step s = finishStep (exec i (s.dispatched i)) := by
  simp only [step, hf, runInstruction, hi, State.fetch_latchDecoded, State.dispatched]

theorem step_of_halted {s : State} (h : s.es = .halted) : step s = .next s := by simp [step, h]

theorem step_of_faulted {s : State} (h : s.es = .faulted) : step s = .fault (.engineFaulted s.fault) := by
  simp [step, h]

/-- What is in flight while an instruction rule runs. -/
@[simp] theorem State.dispatched_inFlight (s : State) (i : Instr) :
    (s.dispatched i).inFlight = some ⟨s.pc, s.read s.pc, some ⟨i.descriptor, s.pc + 1⟩⟩ := rfl

/-- A step from Fetching on a byte of the table answers a next state: the rule's, finished. -/
theorem step_runs {s : State} {i : Instr} (hf : s.es = .fetching) (hi : s.instrAt s.pc = some i) :
    ∃ u, exec i (s.dispatched i) = .next u ∧ step s = .next u.finish := by
  obtain ⟨u, hu⟩ := exec_completes i (s.dispatched_inFlight i)
  exact ⟨u, hu, by rw [step_of_instr hf hi, hu]; rfl⟩

/-- The finished state after a rule that is still Dispatching (R104). -/
theorem finish_after_rule {s u : State} {i : Instr} (hu : exec i (s.dispatched i) = .next u)
    (hd : u.es = .dispatching) :
    u.finish =
      { u with
        pc := if u.pc = s.pc + 1 then u.pc + BitVec.ofNat 16 (i.len - 1) else u.pc
        es := .fetching
        inFlight := none } :=
  u.finish_of_dispatching s.pc (s.read s.pc) i.descriptor (s.pc + 1) hd (exec_keeps hu).2

/-- Everything a step can answer with a next state. -/
theorem step_cases {s t : State} (h : step s = .next t) :
    (s.es ≠ .fetching ∧ s.es ≠ .faulted ∧ t = s) ∨
    (s.es = .fetching ∧ s.instrAt s.pc = none ∧ t =
      { s with
        pc := s.pc + 1
        es := .faulted
        fault := some ⟨.unrecognizedOpcode, s.pc, s.read s.pc⟩
        inFlight := none }) ∨
    (s.es = .fetching ∧ ∃ i u, s.instrAt s.pc = some i ∧ exec i (s.dispatched i) = .next u ∧ t = u.finish) := by
  cases hs : s.es
  case fetching =>
    cases hi : s.instrAt s.pc
    case none => rw [step_of_absent hs hi] at h; cases h; exact .inr (.inl ⟨rfl, rfl, rfl⟩)
    case some i =>
      obtain ⟨u, hu, hstep⟩ := step_runs hs hi
      rw [hstep] at h; cases h
      exact .inr (.inr ⟨rfl, i, u, rfl, hu, rfl⟩)
  case faulted => simp [step, hs] at h
  case halted | dispatching => simp only [step, hs] at h; cases h; exact .inl (by simp)

/-- A step from Fetching ends in Fetching, Halted or Faulted (R104, R105, R225). -/
theorem step_engineState {s t : State} (hf : s.es = .fetching) (h : step s = .next t) :
    t.es = .fetching ∨ t.es = .halted ∨ t.es = .faulted := by
  obtain ⟨hn, -⟩ | ⟨-, -, rfl⟩ | ⟨-, i, u, -, hu, rfl⟩ := step_cases h
  · exact absurd hf hn
  · exact .inr (.inr rfl)
  · obtain ⟨-, he, -⟩ | ⟨-, he, -⟩ | ⟨-, -, he, -⟩ := exec_engineState hu
    · simp [State.finish, he]
    · simp [State.finish, he]
    · rw [finish_after_rule hu he]; exact .inl rfl

/-- The length of an instruction is 1, 2 or 3 bytes (R70). -/
theorem instr_len_pos (i : Instr) : 1 ≤ i.len ∧ i.len ≤ 3 := by
  show 1 ≤ i.descriptor.form.length ∧ i.descriptor.form.length ≤ 3
  cases i.descriptor.form <;> decide

end Sys2Proof.Machine
end

