-- ==== Sys2Proof/Tests/Slice0.lean ====
section
/-! SUPPORT. Small tests. Expected results are the spec's: encodings from spec/opcode_table.json and 30_encoding.md,
single steps from spec/95_test_vectors.md (the section is named at each group). The `witness_` theorems show, for each
statement of Certificates/Slice0/Obligations.lean with hypotheses, a state and operands that meet them. -/
open Sys2Proof Sys2Proof.Machine
namespace Sys2Proof.Tests

/-- A state about to fetch at `pc`, with these registers, this P, and these bytes in zeroed memory. -/
def start (a x y p : Byte) (pc : Addr) (cells : List (Addr × Byte)) : State :=
  { cells.foldl (fun s c => s.write c.1 c.2) (State.construct Config.defaultParams) with
    a := a
    x := x
    y := y
    p := p
    pc := pc }

/-- `start` with registers 0x00 and P = 0x24, at 0x0400. -/
def code (bytes : List Byte) : State := (start 0 0 0 0x24 0x0400 []).writeBytes 0x0400 bytes

/-- What a test vector states after its step. -/
structure Seen where
  a : Byte
  x : Byte
  y : Byte
  p : Byte
  pc : Addr
  es : EngineState
  mem : List Byte
deriving DecidableEq, Repr

/-- What is seen of an answer: registers, P, pc, es and the bytes at the watched addresses. -/
def seen (watch : List Addr) : Result → Option Seen
  | .next t => some ⟨t.a, t.x, t.y, t.p, t.pc, t.es, watch.map t.read⟩
  | _ => none

/-! ### WellFormed refuses ill-formed terms (one check: the branch offset is a signed byte, R73) -/

theorem test_wellFormed_refuses_offset_above_range :
    (Instr.bcc 128).WellFormed = false ∧ (Instr.bvs 200).WellFormed = false := by decide
theorem test_wellFormed_refuses_offset_below_range :
    (Instr.bne (-129)).WellFormed = false ∧ (Instr.bmi (-200)).WellFormed = false := by decide
theorem test_wellFormed_accepts_range_ends :
    (Instr.bcs 127).WellFormed = true ∧ (Instr.beq (-128)).WellFormed = true ∧ (Instr.bpl 0).WellFormed = true ∧
    (Instr.bvc (-1)).WellFormed = true ∧ (Instr.ldaAbs 0xFFFF).WellFormed = true := by decide

/-! ### Decoding, every row of the opcode table (bytes as 30_encoding.md lays them out, R71, R73) -/

theorem test_decode_loads :
    decode [0xA1, 0x34] = .ok ((.ldaIndX 0x34), []) ∧
    decode [0xA5, 0x34] = .ok ((.ldaZp 0x34), []) ∧
    decode [0xA9, 0x34] = .ok ((.ldaImm 0x34), []) ∧
    decode [0xAD, 0x34, 0x12] = .ok ((.ldaAbs 0x1234), []) ∧
    decode [0xB1, 0x34] = .ok ((.ldaIndY 0x34), []) ∧
    decode [0xB5, 0x34] = .ok ((.ldaZpX 0x34), []) ∧
    decode [0xB9, 0x34, 0x12] = .ok ((.ldaAbsY 0x1234), []) ∧
    decode [0xBD, 0x34, 0x12] = .ok ((.ldaAbsX 0x1234), []) ∧
    decode [0xA2, 0x34] = .ok ((.ldxImm 0x34), []) ∧
    decode [0xA6, 0x34] = .ok ((.ldxZp 0x34), []) ∧
    decode [0xAE, 0x34, 0x12] = .ok ((.ldxAbs 0x1234), []) ∧
    decode [0xB6, 0x34] = .ok ((.ldxZpY 0x34), []) ∧
    decode [0xBE, 0x34, 0x12] = .ok ((.ldxAbsY 0x1234), []) ∧
    decode [0xA0, 0x34] = .ok ((.ldyImm 0x34), []) ∧
    decode [0xA4, 0x34] = .ok ((.ldyZp 0x34), []) ∧
    decode [0xAC, 0x34, 0x12] = .ok ((.ldyAbs 0x1234), []) ∧
    decode [0xB4, 0x34] = .ok ((.ldyZpX 0x34), []) ∧
    decode [0xBC, 0x34, 0x12] = .ok ((.ldyAbsX 0x1234), []) := by
  refine ⟨rfl, rfl, rfl, rfl, rfl, rfl, rfl, rfl, rfl, rfl, rfl, rfl, rfl, rfl, rfl, rfl, rfl, rfl⟩
theorem test_decode_stores :
    decode [0x81, 0x34] = .ok ((.staIndX 0x34), []) ∧
    decode [0x85, 0x34] = .ok ((.staZp 0x34), []) ∧
    decode [0x8D, 0x34, 0x12] = .ok ((.staAbs 0x1234), []) ∧
    decode [0x91, 0x34] = .ok ((.staIndY 0x34), []) ∧
    decode [0x95, 0x34] = .ok ((.staZpX 0x34), []) ∧
    decode [0x99, 0x34, 0x12] = .ok ((.staAbsY 0x1234), []) ∧
    decode [0x9D, 0x34, 0x12] = .ok ((.staAbsX 0x1234), []) ∧
    decode [0x86, 0x34] = .ok ((.stxZp 0x34), []) ∧
    decode [0x8E, 0x34, 0x12] = .ok ((.stxAbs 0x1234), []) ∧
    decode [0x96, 0x34] = .ok ((.stxZpY 0x34), []) ∧
    decode [0x84, 0x34] = .ok ((.styZp 0x34), []) ∧
    decode [0x8C, 0x34, 0x12] = .ok ((.styAbs 0x1234), []) ∧
    decode [0x94, 0x34] = .ok ((.styZpX 0x34), []) := by
  refine ⟨rfl, rfl, rfl, rfl, rfl, rfl, rfl, rfl, rfl, rfl, rfl, rfl, rfl⟩
theorem test_decode_transfers_increments :
    decode [0xAA] = .ok (.tax, []) ∧
    decode [0x8A] = .ok (.txa, []) ∧
    decode [0xA8] = .ok (.tay, []) ∧
    decode [0x98] = .ok (.tya, []) ∧
    decode [0xE6, 0x34] = .ok ((.incZp 0x34), []) ∧
    decode [0xEE, 0x34, 0x12] = .ok ((.incAbs 0x1234), []) ∧
    decode [0xF6, 0x34] = .ok ((.incZpX 0x34), []) ∧
    decode [0xFE, 0x34, 0x12] = .ok ((.incAbsX 0x1234), []) ∧
    decode [0xE8] = .ok (.inx, []) ∧
    decode [0xC8] = .ok (.iny, []) := by
  refine ⟨rfl, rfl, rfl, rfl, rfl, rfl, rfl, rfl, rfl, rfl⟩
theorem test_decode_bitwise :
    decode [0x21, 0x34] = .ok ((.andIndX 0x34), []) ∧
    decode [0x25, 0x34] = .ok ((.andZp 0x34), []) ∧
    decode [0x29, 0x34] = .ok ((.andImm 0x34), []) ∧
    decode [0x2D, 0x34, 0x12] = .ok ((.andAbs 0x1234), []) ∧
    decode [0x31, 0x34] = .ok ((.andIndY 0x34), []) ∧
    decode [0x35, 0x34] = .ok ((.andZpX 0x34), []) ∧
    decode [0x39, 0x34, 0x12] = .ok ((.andAbsY 0x1234), []) ∧
    decode [0x3D, 0x34, 0x12] = .ok ((.andAbsX 0x1234), []) ∧
    decode [0x01, 0x34] = .ok ((.oraIndX 0x34), []) ∧
    decode [0x05, 0x34] = .ok ((.oraZp 0x34), []) ∧
    decode [0x09, 0x34] = .ok ((.oraImm 0x34), []) ∧
    decode [0x0D, 0x34, 0x12] = .ok ((.oraAbs 0x1234), []) ∧
    decode [0x11, 0x34] = .ok ((.oraIndY 0x34), []) ∧
    decode [0x15, 0x34] = .ok ((.oraZpX 0x34), []) ∧
    decode [0x19, 0x34, 0x12] = .ok ((.oraAbsY 0x1234), []) ∧
    decode [0x1D, 0x34, 0x12] = .ok ((.oraAbsX 0x1234), []) ∧
    decode [0x41, 0x34] = .ok ((.eorIndX 0x34), []) ∧
    decode [0x45, 0x34] = .ok ((.eorZp 0x34), []) ∧
    decode [0x49, 0x34] = .ok ((.eorImm 0x34), []) ∧
    decode [0x4D, 0x34, 0x12] = .ok ((.eorAbs 0x1234), []) ∧
    decode [0x51, 0x34] = .ok ((.eorIndY 0x34), []) ∧
    decode [0x55, 0x34] = .ok ((.eorZpX 0x34), []) ∧
    decode [0x59, 0x34, 0x12] = .ok ((.eorAbsY 0x1234), []) ∧
    decode [0x5D, 0x34, 0x12] = .ok ((.eorAbsX 0x1234), []) := by
  refine ⟨rfl, rfl, rfl, rfl, rfl, rfl, rfl, rfl, rfl, rfl, rfl, rfl, rfl, rfl, rfl, rfl, rfl, rfl, rfl, rfl, rfl, rfl, rfl, rfl⟩
theorem test_decode_arithmetic :
    decode [0x61, 0x34] = .ok ((.adcIndX 0x34), []) ∧
    decode [0x65, 0x34] = .ok ((.adcZp 0x34), []) ∧
    decode [0x69, 0x34] = .ok ((.adcImm 0x34), []) ∧
    decode [0x6D, 0x34, 0x12] = .ok ((.adcAbs 0x1234), []) ∧
    decode [0x71, 0x34] = .ok ((.adcIndY 0x34), []) ∧
    decode [0x75, 0x34] = .ok ((.adcZpX 0x34), []) ∧
    decode [0x79, 0x34, 0x12] = .ok ((.adcAbsY 0x1234), []) ∧
    decode [0x7D, 0x34, 0x12] = .ok ((.adcAbsX 0x1234), []) ∧
    decode [0xE1, 0x34] = .ok ((.sbcIndX 0x34), []) ∧
    decode [0xE5, 0x34] = .ok ((.sbcZp 0x34), []) ∧
    decode [0xE9, 0x34] = .ok ((.sbcImm 0x34), []) ∧
    decode [0xED, 0x34, 0x12] = .ok ((.sbcAbs 0x1234), []) ∧
    decode [0xF1, 0x34] = .ok ((.sbcIndY 0x34), []) ∧
    decode [0xF5, 0x34] = .ok ((.sbcZpX 0x34), []) ∧
    decode [0xF9, 0x34, 0x12] = .ok ((.sbcAbsY 0x1234), []) ∧
    decode [0xFD, 0x34, 0x12] = .ok ((.sbcAbsX 0x1234), []) := by
  refine ⟨rfl, rfl, rfl, rfl, rfl, rfl, rfl, rfl, rfl, rfl, rfl, rfl, rfl, rfl, rfl, rfl⟩
theorem test_decode_shifts :
    decode [0x06, 0x34] = .ok ((.aslZp 0x34), []) ∧
    decode [0x0A] = .ok (.aslA, []) ∧
    decode [0x0E, 0x34, 0x12] = .ok ((.aslAbs 0x1234), []) ∧
    decode [0x16, 0x34] = .ok ((.aslZpX 0x34), []) ∧
    decode [0x1E, 0x34, 0x12] = .ok ((.aslAbsX 0x1234), []) ∧
    decode [0x46, 0x34] = .ok ((.lsrZp 0x34), []) ∧
    decode [0x4A] = .ok (.lsrA, []) ∧
    decode [0x4E, 0x34, 0x12] = .ok ((.lsrAbs 0x1234), []) ∧
    decode [0x56, 0x34] = .ok ((.lsrZpX 0x34), []) ∧
    decode [0x5E, 0x34, 0x12] = .ok ((.lsrAbsX 0x1234), []) ∧
    decode [0x26, 0x34] = .ok ((.rolZp 0x34), []) ∧
    decode [0x2A] = .ok (.rolA, []) ∧
    decode [0x2E, 0x34, 0x12] = .ok ((.rolAbs 0x1234), []) ∧
    decode [0x36, 0x34] = .ok ((.rolZpX 0x34), []) ∧
    decode [0x3E, 0x34, 0x12] = .ok ((.rolAbsX 0x1234), []) ∧
    decode [0x66, 0x34] = .ok ((.rorZp 0x34), []) ∧
    decode [0x6A] = .ok (.rorA, []) ∧
    decode [0x6E, 0x34, 0x12] = .ok ((.rorAbs 0x1234), []) ∧
    decode [0x76, 0x34] = .ok ((.rorZpX 0x34), []) ∧
    decode [0x7E, 0x34, 0x12] = .ok ((.rorAbsX 0x1234), []) := by
  refine ⟨rfl, rfl, rfl, rfl, rfl, rfl, rfl, rfl, rfl, rfl, rfl, rfl, rfl, rfl, rfl, rfl, rfl, rfl, rfl, rfl⟩
theorem test_decode_bit_branches :
    decode [0x24, 0x34] = .ok ((.bitZp 0x34), []) ∧
    decode [0x2C, 0x34, 0x12] = .ok ((.bitAbs 0x1234), []) ∧
    decode [0x90, 0xF9] = .ok ((.bcc (-7)), []) ∧
    decode [0xB0, 0xF9] = .ok ((.bcs (-7)), []) ∧
    decode [0xF0, 0xF9] = .ok ((.beq (-7)), []) ∧
    decode [0xD0, 0xF9] = .ok ((.bne (-7)), []) ∧
    decode [0x30, 0xF9] = .ok ((.bmi (-7)), []) ∧
    decode [0x10, 0xF9] = .ok ((.bpl (-7)), []) ∧
    decode [0x50, 0xF9] = .ok ((.bvc (-7)), []) ∧
    decode [0x70, 0xF9] = .ok ((.bvs (-7)), []) := by
  refine ⟨rfl, rfl, rfl, rfl, rfl, rfl, rfl, rfl, rfl, rfl⟩
theorem test_decode_nop_brk :
    decode [0xEA] = .ok (.nop, []) ∧
    decode [0x00] = .ok (.brk, []) := by
  refine ⟨rfl, rfl⟩
theorem test_decode_undispatched_compares_decrements :
    decode [0xC1, 0x34] = .ok ((.cmpIndX 0x34), []) ∧
    decode [0xC5, 0x34] = .ok ((.cmpZp 0x34), []) ∧
    decode [0xC9, 0x34] = .ok ((.cmpImm 0x34), []) ∧
    decode [0xCD, 0x34, 0x12] = .ok ((.cmpAbs 0x1234), []) ∧
    decode [0xD1, 0x34] = .ok ((.cmpIndY 0x34), []) ∧
    decode [0xD5, 0x34] = .ok ((.cmpZpX 0x34), []) ∧
    decode [0xD9, 0x34, 0x12] = .ok ((.cmpAbsY 0x1234), []) ∧
    decode [0xDD, 0x34, 0x12] = .ok ((.cmpAbsX 0x1234), []) ∧
    decode [0xE0, 0x34] = .ok ((.cpxImm 0x34), []) ∧
    decode [0xE4, 0x34] = .ok ((.cpxZp 0x34), []) ∧
    decode [0xEC, 0x34, 0x12] = .ok ((.cpxAbs 0x1234), []) ∧
    decode [0xC0, 0x34] = .ok ((.cpyImm 0x34), []) ∧
    decode [0xC4, 0x34] = .ok ((.cpyZp 0x34), []) ∧
    decode [0xCC, 0x34, 0x12] = .ok ((.cpyAbs 0x1234), []) ∧
    decode [0xC6, 0x34] = .ok ((.decZp 0x34), []) ∧
    decode [0xCE, 0x34, 0x12] = .ok ((.decAbs 0x1234), []) ∧
    decode [0xD6, 0x34] = .ok ((.decZpX 0x34), []) ∧
    decode [0xDE, 0x34, 0x12] = .ok ((.decAbsX 0x1234), []) ∧
    decode [0xCA] = .ok (.dex, []) ∧
    decode [0x88] = .ok (.dey, []) := by
  refine ⟨rfl, rfl, rfl, rfl, rfl, rfl, rfl, rfl, rfl, rfl, rfl, rfl, rfl, rfl, rfl, rfl, rfl, rfl, rfl, rfl⟩
theorem test_decode_undispatched_jumps_stack_flags :
    decode [0x4C, 0x34, 0x12] = .ok ((.jmpAbs 0x1234), []) ∧
    decode [0x6C, 0x34, 0x12] = .ok ((.jmpInd 0x1234), []) ∧
    decode [0x20, 0x34, 0x12] = .ok ((.jsrAbs 0x1234), []) ∧
    decode [0x60] = .ok (.rts, []) ∧
    decode [0x40] = .ok (.rti, []) ∧
    decode [0x48] = .ok (.pha, []) ∧
    decode [0x08] = .ok (.php, []) ∧
    decode [0x68] = .ok (.pla, []) ∧
    decode [0x28] = .ok (.plp, []) ∧
    decode [0x18] = .ok (.clc, []) ∧
    decode [0xD8] = .ok (.cld, []) ∧
    decode [0x58] = .ok (.cli, []) ∧
    decode [0xB8] = .ok (.clv, []) ∧
    decode [0x38] = .ok (.sec, []) ∧
    decode [0xF8] = .ok (.sed, []) ∧
    decode [0x78] = .ok (.sei, []) ∧
    decode [0xBA] = .ok (.tsx, []) ∧
    decode [0x9A] = .ok (.txs, []) := by
  refine ⟨rfl, rfl, rfl, rfl, rfl, rfl, rfl, rfl, rfl, rfl, rfl, rfl, rfl, rfl, rfl, rfl, rfl, rfl⟩

/-- The table has 151 rows, by rising opcode byte, 38 of them not dispatched, and 105 bytes have none (R75 to R77). -/
theorem test_opcodeTable_is_whole :
    opcodeTable.length = 151 ∧ absentBytes.length = 105 ∧ undispatchedBytes.length = 38 := ⟨rfl, rfl, rfl⟩
set_option maxRecDepth 4096 in
theorem test_opcodeTable_rises :
    ∀ rows ∈ opcodeTable.zip opcodeTable.tail, rows.1.opcode.toNat < rows.2.opcode.toNat := by decide
/-- The four bytes the source gives, and a row of each length (opcode_table.json). -/
theorem test_opcodeTable_rows :
    ⟨0x00, .BRK, .implied, .noMode, 1, 7⟩ ∈ opcodeTable ∧ ⟨0xEA, .NOP, .implied, .noMode, 1, 2⟩ ∈ opcodeTable ∧
    ⟨0xA9, .LDA, .immediate, .immediate, 2, 2⟩ ∈ opcodeTable ∧ ⟨0x69, .ADC, .immediate, .immediate, 2, 2⟩ ∈ opcodeTable ∧
    ⟨0xB6, .LDX, .zeroPageY, .zeroPageY, 2, 4⟩ ∈ opcodeTable ∧ ⟨0x6C, .JMP, .indirect, .noMode, 3, 5⟩ ∈ opcodeTable := by
  decide

/-- Bytes past the instruction are left; the offset byte is signed; a 3-byte address is low byte first (R73, R74). -/
theorem test_decode_leaves_the_rest :
    decode [0xA9, 0x80, 0x69, 0x80, 0x00] = .ok (.ldaImm 0x80, [0x69, 0x80, 0x00]) ∧
    decode [0xD0, 0x7F, 0xEA] = .ok (.bne 127, [0xEA]) ∧ decode [0x30, 0x80] = .ok (.bmi (-128), []) ∧
    decode [0xAD, 0x00, 0xFF] = .ok (.ldaAbs 0xFF00, []) := by refine ⟨rfl, rfl, rfl, rfl⟩

/-- What is no instruction is rejected by name (R77). -/
theorem test_decode_rejects_by_name :
    decode [] = .error .noOpcode ∧ decode [0x02, 0x00, 0x00] = .error (.unrecognizedOpcode 0x02) ∧
    decode [0xFF] = .error (.unrecognizedOpcode 0xFF) ∧ decode [0xA9] = .error (.truncated 0xA9) ∧
    decode [0x6C, 0x34] = .error (.truncated 0x6C) := by refine ⟨rfl, rfl, rfl, rfl, rfl⟩

/-- The table's bit numbering: byte k is bits 8k+7 to 8k, and the bits above nbits are 0. -/
theorem test_decodeTableWord :
    decodeTableWord 24 0x1234AD = some (.ldaAbs 0x1234) ∧ decodeTableWord 16 0xF9D0 = some (.bne (-7)) ∧
    decodeTableWord 8 0xEA = some .nop ∧ decodeTableWord 8 0x34A9 = some (.ldaImm 0) ∧
    decodeTableWord 8 0x02 = none := by refine ⟨rfl, rfl, rfl, rfl, rfl⟩

/-- withFetchWord puts the word where the next step fetches it, from reset and from a halted or faulted state. -/
theorem test_withFetchWord_runs_next :
    seen [] (step (State.reset.withFetchWord 16 0x80A9)) = some ⟨0x80, 0, 0, 0xA4, 0x0002, .fetching, []⟩ ∧
    seen [] (step ({ code [] with es := .halted }.withFetchWord 8 0xE8)) =
      some ⟨0, 1, 0, 0x24, 0x0401, .fetching, []⟩ := by decide

/-! ### Single steps (95_test_vectors.md 2.1 to 2.8) -/

/-- `LDA $F0,X` (section 2.1). -/
theorem test_lda_zeroPageX_wraps :
    seen [] (step (start 0x00 0x20 0x00 0x24 0x0400 [(0x0400, 0xB5), (0x0401, 0xF0), (0x0010, 0x99)])) =
    some ⟨0x99, 0x20, 0x00, 0xA4, 0x0402, .fetching, []⟩ := by decide
/-- `LDA ($20),Y` (section 2.1). -/
theorem test_lda_indirectY_adds_y :
    seen [] (step (start 0x00 0x00 0x10 0x24 0x0400 [(0x0400, 0xB1), (0x0401, 0x20), (0x0020, 0xF8), (0x0021, 0x30), (0x3108, 0x01)])) =
    some ⟨0x01, 0x00, 0x10, 0x24, 0x0402, .fetching, []⟩ := by decide
/-- `LDX $10,Y` (section 2.1). -/
theorem test_ldx_zeroPageY_wraps :
    seen [] (step (start 0x00 0x00 0xF5 0x24 0x0400 [(0x0400, 0xB6), (0x0401, 0x10), (0x0005, 0x80)])) =
    some ⟨0x00, 0x80, 0xF5, 0xA4, 0x0402, .fetching, []⟩ := by decide
/-- `LDX #$00` (section 2.1). -/
theorem test_ldx_immediate_zero :
    seen [] (step (start 0x00 0x12 0x00 0x24 0x0400 [(0x0400, 0xA2), (0x0401, 0x00)])) =
    some ⟨0x00, 0x00, 0x00, 0x26, 0x0402, .fetching, []⟩ := by decide
/-- `LDY $1234,X` (section 2.1). -/
theorem test_ldy_absoluteX :
    seen [] (step (start 0x00 0x01 0x00 0x24 0x0400 [(0x0400, 0xBC), (0x0401, 0x34), (0x0402, 0x12), (0x1235, 0xFF)])) =
    some ⟨0x00, 0x01, 0xFF, 0xA4, 0x0403, .fetching, []⟩ := by decide
/-- `LDY #$01` (section 2.1). -/
theorem test_ldy_clears_flags :
    seen [] (step (start 0x00 0x00 0x00 0xA6 0x0400 [(0x0400, 0xA0), (0x0401, 0x01)])) =
    some ⟨0x00, 0x00, 0x01, 0x24, 0x0402, .fetching, []⟩ := by decide
/-- `STA $FF,X` (section 2.1). -/
theorem test_sta_zeroPageX_wraps :
    seen [0x0000] (step (start 0x5A 0x01 0x00 0x24 0x0400 [(0x0400, 0x95), (0x0401, 0xFF)])) =
    some ⟨0x5A, 0x01, 0x00, 0x24, 0x0402, .fetching, [0x5A]⟩ := by decide
/-- `STA ($FF),Y` (section 2.1). -/
theorem test_sta_indirectY_pointer_wraps :
    seen [0x1235] (step (start 0xEE 0x00 0x01 0x24 0x0400 [(0x0400, 0x91), (0x0401, 0xFF), (0x00FF, 0x34), (0x0000, 0x12)])) =
    some ⟨0xEE, 0x00, 0x01, 0x24, 0x0402, .fetching, [0xEE]⟩ := by decide
/-- `STX $FF,Y` (section 2.1). -/
theorem test_stx_zeroPageY_wraps :
    seen [0x0001] (step (start 0x00 0x80 0x02 0x24 0x0400 [(0x0400, 0x96), (0x0401, 0xFF)])) =
    some ⟨0x00, 0x80, 0x02, 0x24, 0x0402, .fetching, [0x80]⟩ := by decide
/-- `STY $0200` (section 2.1). -/
theorem test_sty_writes_no_flag :
    seen [0x0200] (step (start 0x00 0x00 0x00 0x24 0x0400 [(0x0400, 0x8C), (0x0401, 0x00), (0x0402, 0x02)])) =
    some ⟨0x00, 0x00, 0x00, 0x24, 0x0403, .fetching, [0x00]⟩ := by decide
/-- `TAX` (section 2.1). -/
theorem test_tax :
    seen [] (step (start 0x00 0x33 0x00 0x24 0x0400 [(0x0400, 0xAA)])) =
    some ⟨0x00, 0x00, 0x00, 0x26, 0x0401, .fetching, []⟩ := by decide
/-- `TXA` (section 2.1). -/
theorem test_txa :
    seen [] (step (start 0x01 0x90 0x00 0x24 0x0400 [(0x0400, 0x8A)])) =
    some ⟨0x90, 0x90, 0x00, 0xA4, 0x0401, .fetching, []⟩ := by decide
/-- `TAY` (section 2.1). -/
theorem test_tay :
    seen [] (step (start 0xFF 0x00 0x00 0x24 0x0400 [(0x0400, 0xA8)])) =
    some ⟨0xFF, 0x00, 0xFF, 0xA4, 0x0401, .fetching, []⟩ := by decide
/-- `TYA` (section 2.1). -/
theorem test_tya :
    seen [] (step (start 0x80 0x00 0x00 0x24 0x0400 [(0x0400, 0x98)])) =
    some ⟨0x00, 0x00, 0x00, 0x26, 0x0401, .fetching, []⟩ := by decide
/-- `INC $10` (section 2.2). -/
theorem test_inc_wraps_to_zero :
    seen [0x0010] (step (start 0x00 0x00 0x00 0x24 0x0400 [(0x0400, 0xE6), (0x0401, 0x10), (0x0010, 0xFF)])) =
    some ⟨0x00, 0x00, 0x00, 0x26, 0x0402, .fetching, [0x00]⟩ := by decide
/-- `INC $FFFF,X` (section 2.2). -/
theorem test_inc_absoluteX_wraps :
    seen [0x0000] (step (start 0x00 0x01 0x00 0x24 0x0400 [(0x0400, 0xFE), (0x0401, 0xFF), (0x0402, 0xFF), (0x0000, 0x00)])) =
    some ⟨0x00, 0x01, 0x00, 0x24, 0x0403, .fetching, [0x01]⟩ := by decide
/-- `INX` (section 2.2). -/
theorem test_inx_commits :
    seen [] (step (start 0x00 0xFF 0x00 0x24 0x0400 [(0x0400, 0xE8)])) =
    some ⟨0x00, 0x00, 0x00, 0x26, 0x0401, .fetching, []⟩ := by decide
/-- `INX` (section 2.2). -/
theorem test_inx_sets_negative :
    seen [] (step (start 0x00 0x7F 0x00 0x24 0x0400 [(0x0400, 0xE8)])) =
    some ⟨0x00, 0x80, 0x00, 0xA4, 0x0401, .fetching, []⟩ := by decide
/-- `INY` (section 2.2). -/
theorem test_iny_commits :
    seen [] (step (start 0x00 0x00 0xFF 0xA4 0x0400 [(0x0400, 0xC8)])) =
    some ⟨0x00, 0x00, 0x00, 0x26, 0x0401, .fetching, []⟩ := by decide
/-- `INY` (section 2.2). -/
theorem test_iny_increments :
    seen [] (step (start 0x00 0x00 0x80 0x24 0x0400 [(0x0400, 0xC8)])) =
    some ⟨0x00, 0x00, 0x81, 0xA4, 0x0401, .fetching, []⟩ := by decide
/-- `AND #$0F` (section 2.3). -/
theorem test_and_clears :
    seen [] (step (start 0xF0 0x00 0x00 0x24 0x0400 [(0x0400, 0x29), (0x0401, 0x0F)])) =
    some ⟨0x00, 0x00, 0x00, 0x26, 0x0402, .fetching, []⟩ := by decide
/-- `AND #$81` (section 2.3). -/
theorem test_and_keeps_negative :
    seen [] (step (start 0xFF 0x00 0x00 0x24 0x0400 [(0x0400, 0x29), (0x0401, 0x81)])) =
    some ⟨0x81, 0x00, 0x00, 0xA4, 0x0402, .fetching, []⟩ := by decide
/-- `ORA #$00` (section 2.3). -/
theorem test_ora_zero :
    seen [] (step (start 0x00 0x00 0x00 0x24 0x0400 [(0x0400, 0x09), (0x0401, 0x00)])) =
    some ⟨0x00, 0x00, 0x00, 0x26, 0x0402, .fetching, []⟩ := by decide
/-- `ORA $10` (section 2.3). -/
theorem test_ora_memory :
    seen [] (step (start 0x01 0x00 0x00 0x24 0x0400 [(0x0400, 0x05), (0x0401, 0x10), (0x0010, 0x80)])) =
    some ⟨0x81, 0x00, 0x00, 0xA4, 0x0402, .fetching, []⟩ := by decide
/-- `EOR #$FF` (section 2.3). -/
theorem test_eor_cancels :
    seen [] (step (start 0xFF 0x00 0x00 0x24 0x0400 [(0x0400, 0x49), (0x0401, 0xFF)])) =
    some ⟨0x00, 0x00, 0x00, 0x26, 0x0402, .fetching, []⟩ := by decide
/-- `EOR #$FF` (section 2.3). -/
theorem test_eor_flips :
    seen [] (step (start 0x0F 0x00 0x00 0x24 0x0400 [(0x0400, 0x49), (0x0401, 0xFF)])) =
    some ⟨0xF0, 0x00, 0x00, 0xA4, 0x0402, .fetching, []⟩ := by decide
/-- `ADC #$50` (section 2.3). -/
theorem test_adc_clears_carry_and_overflow :
    seen [] (step (start 0x10 0x00 0x00 0x67 0x0400 [(0x0400, 0x69), (0x0401, 0x50)])) =
    some ⟨0x61, 0x00, 0x00, 0x24, 0x0402, .fetching, []⟩ := by decide
/-- `ADC ($FF,X)` (section 2.3). -/
theorem test_adc_indirectX_pointer_wraps :
    seen [] (step (start 0x01 0x00 0x00 0x24 0x0400 [(0x0400, 0x61), (0x0401, 0xFF), (0x00FF, 0x00), (0x0000, 0x20), (0x2000, 0x02)])) =
    some ⟨0x03, 0x00, 0x00, 0x24, 0x0402, .fetching, []⟩ := by decide
/-- `SBC #$03` (section 2.4). -/
theorem test_sbc_with_carry_set :
    seen [] (step (start 0x05 0x00 0x00 0x25 0x0400 [(0x0400, 0xE9), (0x0401, 0x03)])) =
    some ⟨0x03, 0x00, 0x00, 0x25, 0x0402, .fetching, []⟩ := by decide
/-- `SBC #$00` (section 2.4). -/
theorem test_sbc_of_zero :
    seen [] (step (start 0x05 0x00 0x00 0x24 0x0400 [(0x0400, 0xE9), (0x0401, 0x00)])) =
    some ⟨0x05, 0x00, 0x00, 0x24, 0x0402, .fetching, []⟩ := by decide
/-- `ASL A` (section 2.5). -/
theorem test_asl_accumulator_ignores_carry :
    seen [] (step (start 0x41 0x00 0x00 0x25 0x0400 [(0x0400, 0x0A)])) =
    some ⟨0x82, 0x00, 0x00, 0xA4, 0x0401, .fetching, []⟩ := by decide
/-- `ASL $10,X` (section 2.5). -/
theorem test_asl_zeroPageX_wraps :
    seen [0x000F] (step (start 0x00 0xFF 0x00 0x24 0x0400 [(0x0400, 0x16), (0x0401, 0x10), (0x000F, 0x01)])) =
    some ⟨0x00, 0xFF, 0x00, 0x24, 0x0402, .fetching, [0x02]⟩ := by decide
/-- `LSR A` (section 2.5). -/
theorem test_lsr_accumulator :
    seen [] (step (start 0x80 0x00 0x00 0x25 0x0400 [(0x0400, 0x4A)])) =
    some ⟨0x40, 0x00, 0x00, 0x24, 0x0401, .fetching, []⟩ := by decide
/-- `LSR $1000,X` (section 2.5). -/
theorem test_lsr_memory_keeps_a :
    seen [0x1001] (step (start 0x77 0x01 0x00 0x24 0x0400 [(0x0400, 0x5E), (0x0401, 0x00), (0x0402, 0x10), (0x1001, 0x03)])) =
    some ⟨0x77, 0x01, 0x00, 0x25, 0x0403, .fetching, [0x01]⟩ := by decide
/-- `ROL A` (section 2.5). -/
theorem test_rol_accumulator_takes_carry :
    seen [] (step (start 0x00 0x00 0x00 0x25 0x0400 [(0x0400, 0x2A)])) =
    some ⟨0x01, 0x00, 0x00, 0x24, 0x0401, .fetching, []⟩ := by decide
/-- `ROL $10` (section 2.5). -/
theorem test_rol_memory_keeps_a :
    seen [0x0010] (step (start 0x11 0x00 0x00 0x25 0x0400 [(0x0400, 0x26), (0x0401, 0x10), (0x0010, 0x40)])) =
    some ⟨0x11, 0x00, 0x00, 0xA4, 0x0402, .fetching, [0x81]⟩ := by decide
/-- `ROR A` (section 2.5). -/
theorem test_ror_accumulator_takes_carry :
    seen [] (step (start 0x7F 0x00 0x00 0x25 0x0400 [(0x0400, 0x6A)])) =
    some ⟨0xBF, 0x00, 0x00, 0xA5, 0x0401, .fetching, []⟩ := by decide
/-- `ROR $10,X` (section 2.5). -/
theorem test_ror_memory :
    seen [0x0011] (step (start 0x22 0x01 0x00 0x24 0x0400 [(0x0400, 0x76), (0x0401, 0x10), (0x0011, 0x01)])) =
    some ⟨0x22, 0x01, 0x00, 0x27, 0x0402, .fetching, [0x00]⟩ := by decide
/-- `BIT $10` (section 2.6). -/
theorem test_bit_zero_and_negative_together :
    seen [] (step (start 0x01 0x00 0x00 0x24 0x0400 [(0x0400, 0x24), (0x0401, 0x10), (0x0010, 0xC0)])) =
    some ⟨0x01, 0x00, 0x00, 0xE6, 0x0402, .fetching, []⟩ := by decide
/-- `BIT $10` (section 2.6). -/
theorem test_bit_keeps_carry :
    seen [] (step (start 0x00 0x00 0x00 0x25 0x0400 [(0x0400, 0x24), (0x0401, 0x10), (0x0010, 0x3F)])) =
    some ⟨0x00, 0x00, 0x00, 0x27, 0x0402, .fetching, []⟩ := by decide
/-- `BCC +$04` (section 2.7). -/
theorem test_bcc_taken :
    seen [] (step (start 0x00 0x00 0x00 0x24 0x0400 [(0x0400, 0x90), (0x0401, 0x04)])) =
    some ⟨0x00, 0x00, 0x00, 0x24, 0x0406, .fetching, []⟩ := by decide
/-- `BCC +$04` (section 2.7). -/
theorem test_bcc_not_taken :
    seen [] (step (start 0x00 0x00 0x00 0x25 0x0400 [(0x0400, 0x90), (0x0401, 0x04)])) =
    some ⟨0x00, 0x00, 0x00, 0x25, 0x0402, .fetching, []⟩ := by decide
/-- `BCS -$02` (section 2.7). -/
theorem test_bcs_to_itself :
    seen [] (step (start 0x00 0x00 0x00 0x25 0x0400 [(0x0400, 0xB0), (0x0401, 0xFE)])) =
    some ⟨0x00, 0x00, 0x00, 0x25, 0x0400, .fetching, []⟩ := by decide
/-- `BEQ -$01` (section 2.7). -/
theorem test_beq_offset_ff_falls_through :
    seen [] (step (start 0x00 0x00 0x00 0x26 0x0400 [(0x0400, 0xF0), (0x0401, 0xFF)])) =
    some ⟨0x00, 0x00, 0x00, 0x26, 0x0402, .fetching, []⟩ := by decide
/-- `BNE +$7F` (section 2.7). -/
theorem test_bne_forward_end :
    seen [] (step (start 0x00 0x00 0x00 0x24 0x0400 [(0x0400, 0xD0), (0x0401, 0x7F)])) =
    some ⟨0x00, 0x00, 0x00, 0x24, 0x0481, .fetching, []⟩ := by decide
/-- `BNE -$80` (section 2.7). -/
theorem test_bne_backward_end :
    seen [] (step (start 0x00 0x00 0x00 0x24 0x0400 [(0x0400, 0xD0), (0x0401, 0x80)])) =
    some ⟨0x00, 0x00, 0x00, 0x24, 0x0382, .fetching, []⟩ := by decide
/-- `BMI -$80` (section 2.7). -/
theorem test_bmi_taken :
    seen [] (step (start 0x00 0x00 0x00 0xA4 0x0400 [(0x0400, 0x30), (0x0401, 0x80)])) =
    some ⟨0x00, 0x00, 0x00, 0xA4, 0x0382, .fetching, []⟩ := by decide
/-- `BPL +$10` (section 2.7). -/
theorem test_bpl_not_taken :
    seen [] (step (start 0x00 0x00 0x00 0xA4 0x0400 [(0x0400, 0x10), (0x0401, 0x10)])) =
    some ⟨0x00, 0x00, 0x00, 0xA4, 0x0402, .fetching, []⟩ := by decide
/-- `BPL -$10` (section 2.7). -/
theorem test_bpl_wraps_backward :
    seen [] (step (start 0x00 0x00 0x00 0x24 0x0004 [(0x0004, 0x10), (0x0005, 0xF0)])) =
    some ⟨0x00, 0x00, 0x00, 0x24, 0xFFF6, .fetching, []⟩ := by decide
/-- `BVC +$10` (section 2.7). -/
theorem test_bvc_taken :
    seen [] (step (start 0x00 0x00 0x00 0x24 0x0400 [(0x0400, 0x50), (0x0401, 0x10)])) =
    some ⟨0x00, 0x00, 0x00, 0x24, 0x0412, .fetching, []⟩ := by decide
/-- `BVS +$10` (section 2.7). -/
theorem test_bvs_not_taken :
    seen [] (step (start 0x00 0x00 0x00 0x24 0x0400 [(0x0400, 0x70), (0x0401, 0x10)])) =
    some ⟨0x00, 0x00, 0x00, 0x24, 0x0402, .fetching, []⟩ := by decide
/-- `BVS +$20` (section 2.7). -/
theorem test_bvs_wraps_forward :
    seen [] (step (start 0x00 0x00 0x00 0x64 0xFFF0 [(0xFFF0, 0x70), (0xFFF1, 0x20)])) =
    some ⟨0x00, 0x00, 0x00, 0x64, 0x0012, .fetching, []⟩ := by decide
/-- `NOP` (section 2.8). -/
theorem test_nop_at_top :
    seen [] (step (start 0x00 0x00 0x00 0x24 0xFFFF [(0xFFFF, 0xEA)])) =
    some ⟨0x00, 0x00, 0x00, 0x24, 0x0000, .fetching, []⟩ := by decide
/-- `NOP` (section 2.8). -/
theorem test_nop_keeps_all :
    seen [] (step (start 0x12 0x34 0x56 0xE7 0x0400 [(0x0400, 0xEA)])) =
    some ⟨0x12, 0x34, 0x56, 0xE7, 0x0401, .fetching, []⟩ := by decide
/-- `BRK` (section 2.8). -/
theorem test_brk_halts :
    seen [] (step (start 0x99 0x00 0x00 0xE7 0x0400 [(0x0400, 0x00)])) =
    some ⟨0x99, 0x00, 0x00, 0xE7, 0x0401, .halted, []⟩ := by decide
/-- `BRK` (section 2.8). -/
theorem test_brk_at_top :
    seen [] (step (start 0x00 0x00 0x00 0x24 0xFFFF [(0xFFFF, 0x00)])) =
    some ⟨0x00, 0x00, 0x00, 0x24, 0x0000, .halted, []⟩ := by decide

/-! ### The resolver (95_test_vectors.md 2.9): pc is the first operand byte's address -/

theorem test_resolve_zero_page_wraps :
    resolve .immediate (start 0 0 0 0 0x0401 []) = some 0x0401 ∧
    resolve .zeroPageX (start 0 0x01 0 0 0x0401 [(0x0401, 0xFF)]) = some 0x0000 ∧
    resolve .zeroPageX (start 0 0xFF 0 0 0x0401 [(0x0401, 0x80)]) = some 0x007F ∧
    resolve .zeroPageY (start 0 0 0x02 0 0x0401 [(0x0401, 0xFF)]) = some 0x0001 := by decide
theorem test_resolve_absolute_wraps :
    resolve .absolute (start 0 0 0 0 0x0401 [(0x0401, 0x34), (0x0402, 0x12)]) = some 0x1234 ∧
    resolve .absoluteX (start 0 0x01 0 0 0x0401 [(0x0401, 0xFF), (0x0402, 0x12)]) = some 0x1300 ∧
    resolve .absoluteX (start 0 0x02 0 0 0x0401 [(0x0401, 0xFF), (0x0402, 0xFF)]) = some 0x0001 ∧
    resolve .absoluteY (start 0 0 0xFF 0 0x0401 []) = some 0x00FF := by decide
theorem test_resolve_indirect_wraps :
    resolve .indirectX (start 0 0x01 0 0 0x0401 [(0x0401, 0xFE), (0x00FF, 0x34), (0x0000, 0x12)]) = some 0x1234 ∧
    resolve .indirectX (start 0 0xE0 0 0 0x0401 [(0x0401, 0x20), (0x0001, 0x40)]) = some 0x4000 ∧
    resolve .indirectY (start 0 0 0x01 0 0x0401 [(0x0401, 0xFF), (0x00FF, 0x34), (0x0000, 0x12)]) = some 0x1235 ∧
    resolve .indirectY (start 0 0 0x02 0 0x0401 [(0x0401, 0x20), (0x0020, 0xFF), (0x0021, 0xFF)]) = some 0x0001 ∧
    resolve .noMode (code []) = none := by decide
theorem test_read16_wraps : (start 0 0 0 0 0 [(0xFFFF, 0x34), (0x0000, 0x12)]).read16 0xFFFF = 0x1234 := by decide

/-! ### Assembler notation (R72, R80; the lines of 95_test_vectors.md section 3) -/

theorem test_assembly :
    (Instr.ldaImm 0x80).assembly 0x8000 = "LDA #$80" ∧ (Instr.staAbsX 0x0200).assembly 0x8003 = "STA $0200,X" ∧
    (Instr.staIndY 0xFF).assembly 0x800C = "STA ($FF),Y" ∧ (Instr.ldaIndX 0x00).assembly 0x8016 = "LDA ($00,X)" ∧
    Instr.lsrA.assembly 0x8002 = "LSR A" ∧ Instr.brk.assembly 0x800E = "BRK" ∧
    (Instr.bne (-7)).assembly 0x8007 = "BNE $8002" := by decide
theorem test_assembleOffset :
    assembleOffset 0x8007 0x8002 = some (-7) ∧ assembleOffset 0x8007 0x800C = some 3 ∧
    assembleOffset 0x0400 0x0481 = some 127 ∧ assembleOffset 0x0400 0x0482 = none ∧
    assembleOffset 0x0400 0x0382 = some (-128) ∧ assembleOffset 0x0400 0x0381 = none ∧
    assembleOffset 0xFFF0 0x0012 = some 32 := by decide

/-! ### Errors (95_test_vectors.md 2.10) -/

/-- The fault record, pc and es of an answer. -/
def faultOf : Result → Option (Option FaultRecord × Addr × EngineState)
  | .next t => some (t.fault, t.pc, t.es)
  | _ => none

theorem test_absent_opcodes_fault :
    faultOf (step (code [0x02])) = some (some ⟨.unrecognizedOpcode, 0x0400, 0x02⟩, 0x0401, .faulted) ∧
    faultOf (step (code [0xFF])) = some (some ⟨.unrecognizedOpcode, 0x0400, 0xFF⟩, 0x0401, .faulted) := by decide
theorem test_unimplemented_opcodes_fault :
    faultOf (step (code [0xC9, 0x01])) = some (some ⟨.unimplementedOpcode, 0x0400, 0xC9⟩, 0x0401, .faulted) ∧
    faultOf (step (code [0xCA])) = some (some ⟨.unimplementedOpcode, 0x0400, 0xCA⟩, 0x0401, .faulted) ∧
    faultOf (step (code [0x4C, 0x34, 0x12])) = some (some ⟨.unimplementedOpcode, 0x0400, 0x4C⟩, 0x0401, .faulted) ∧
    faultOf (step (code [0x9A])) = some (some ⟨.unimplementedOpcode, 0x0400, 0x9A⟩, 0x0401, .faulted) := by decide
theorem test_error_numbers :
    ErrorCode.unrecognizedOpcode.number = 1 ∧ ErrorCode.unimplementedOpcode.number = 2 ∧
    ErrorCode.invalidAddressingMode.number = 3 ∧ ErrorCode.programTooLarge.number = 4 := by decide
/-- `LDA $1200` at 0xFFFE and `LDA #$07` at 0xFFFF: the operand read and the advance wrap. -/
theorem test_fetch_wraps_at_top :
    seen [] (step (start 0 0 0 0x24 0xFFFE [(0xFFFE, 0xAD), (0x0000, 0x12), (0x1200, 0x5C)])) =
      some ⟨0x5C, 0, 0, 0x24, 0x0001, .fetching, []⟩ ∧
    seen [] (step (start 0 0 0 0x24 0xFFFF [(0xFFFF, 0xA9), (0x0000, 0x07)])) =
      some ⟨0x07, 0, 0, 0x24, 0x0001, .fetching, []⟩ := by decide
theorem test_stopped_engine :
    step { code [0xE8] with es := .halted } = .next { code [0xE8] with es := .halted } ∧
    hostStep { code [0xE8] with es := .faulted, fault := some ⟨.unimplementedOpcode, 0x0400, 0xC9⟩ } =
      (.error (some ⟨.unimplementedOpcode, 0x0400, 0xC9⟩),
        { code [0xE8] with es := .faulted, fault := some ⟨.unimplementedOpcode, 0x0400, 0xC9⟩ }) := ⟨rfl, rfl⟩

/-! ### Construction, reset and load (95_test_vectors.md 2.11) -/

/-- The constructed state with the default parameters. -/
def block : State := State.construct Config.defaultParams

theorem test_load_writes_program_and_vector :
    (hostLoad [0xEA, 0x00] block).2.mem = [(0x8000, 0xEA), (0xFFFD, 0x80)] ∧
    (hostLoad [0xEA, 0x00] block).2.pc = 0x0000 ∧
    (hostReset Config.defaultParams (hostLoad [0xEA, 0x00] block).2).pc = 0x8000 := by decide
theorem test_load_refuses_too_large :
    hostLoad (List.replicate 0x8001 0xEA) block = (.programTooLarge 0x8001, block) := by
  rw [hostLoad, if_pos (by rw [List.length_replicate]; decide), List.length_replicate]
theorem test_reset_reads_host_vector :
    (hostReset Config.defaultParams (hostAct (.writeMem 0xFFFD 0x90) block).2).pc = 0x9000 := by decide
theorem test_reset_clears_fault :
    (hostReset Config.defaultParams { block with es := .faulted, fault := some ⟨.unrecognizedOpcode, 0, 2⟩ }).fault = none ∧
    (hostReset Config.defaultParams { block with es := .faulted }).es = .fetching := by decide
theorem test_load_and_run_fault :
    (hostLoadAndRun Config.defaultParams 1 [0x02] block).1 = .error (some ⟨.unrecognizedOpcode, 0x8000, 0x02⟩) ∧
    (hostLoadAndRun Config.defaultParams 1 [0x02] block).2.pc = 0x8001 := by decide
/-- The first step from reset with nothing placed fetches 0x00 at 0x0000 and halts (R254). -/
theorem test_first_step_from_reset : step State.reset = .next { State.reset with pc := 0x0001, es := .halted } := rfl

/-! ### Memory's canonical form -/

theorem test_write_keeps_canonical_form :
    ((block.write 0x0010 0x7F).write 0x0002 0x01).mem = [(0x0002, 0x01), (0x0010, 0x7F)] ∧
    ((block.write 0x0010 0x7F).write 0x0010 0x00).mem = [] ∧ (block.write 0xFFFF 0x00).mem = [] := by decide
theorem test_wf_refuses :
    Memory.wf [(5, 0)] = false ∧ Memory.wf [(5, 1), (5, 2)] = false ∧ Memory.wf [(6, 1), (5, 2)] = false ∧
    Memory.wf [(65536, 1)] = false ∧ Memory.wf [(0, 1), (65535, 2)] = true := by decide

/-! ### Witnesses: the hypotheses of each statement can be met -/

theorem witness_StepKeepsInvariant : (code [0xE8]).Inv ∧ ∃ t, step (code [0xE8]) = .next t :=
  ⟨⟨by decide, by decide, by decide, by decide⟩, _, rfl⟩
theorem witness_HostActionsKeepInvariant :
    (code [0xE8]).Inv ∧ State.Inv { code [0x02] with es := .faulted, fault := some ⟨.unrecognizedOpcode, 0x0400, 0x02⟩ } :=
  ⟨⟨by decide, by decide, by decide, by decide⟩, ⟨by decide, by decide, by decide, by decide⟩⟩
/-- One instruction for each way a step ends: advanced, branched, halted, raised. -/
theorem witness_StepRunsDecodedInstruction :
    (let s := code [0xAD, 0x34, 0x12]
     s.es = .fetching ∧ decodeBytes (s.read s.pc) (s.read (s.pc + 1)) (s.read (s.pc + 2)) = some (.ldaAbs 0x1234)) ∧
    (let s := code [0x90, 0x80]
     s.es = .fetching ∧ decodeBytes (s.read s.pc) (s.read (s.pc + 1)) (s.read (s.pc + 2)) = some (.bcc (-128))) ∧
    (let s := code [0x00]
     s.es = .fetching ∧ decodeBytes (s.read s.pc) (s.read (s.pc + 1)) (s.read (s.pc + 2)) = some .brk) ∧
    (let s := code [0x48]
     s.es = .fetching ∧ decodeBytes (s.read s.pc) (s.read (s.pc + 1)) (s.read (s.pc + 2)) = some .pha) := by
  refine ⟨⟨rfl, rfl⟩, ⟨rfl, rfl⟩, ⟨rfl, rfl⟩, ⟨rfl, rfl⟩⟩
theorem witness_DecodeOfEncodeIsInstruction :
    (Instr.bcc 127).WellFormed = true ∧ (Instr.bvs (-128)).WellFormed = true ∧ (Instr.jmpInd 0xFFFF).WellFormed = true := by
  decide
theorem witness_DecodedBytesAreEncoding : decode [0xFE, 0x34, 0x12, 0x99] = .ok (.incAbsX 0x1234, [0x99]) := rfl
theorem witness_OpcodeBytesSplitThreeWays :
    decodeBytes 0xC9 0x01 0x00 = some (.cmpImm 0x01) ∧ decodeBytes 0xA9 0x01 0x00 = some (.ldaImm 0x01) := ⟨rfl, rfl⟩
theorem witness_AbsentOpcodeFaultsPrecisely :
    ((code [0x02]).es = .fetching ∧ (code [0x02]).read (code [0x02]).pc ∈ absentBytes) ∧
    ((code [0xFF]).es = .fetching ∧ (code [0xFF]).read (code [0xFF]).pc ∈ absentBytes) := by decide
theorem witness_UndispatchedInstructionRaises :
    (Instr.cmpImm 0x01).mnemonic.dispatched = false ∧ Instr.txs.mnemonic.dispatched = false ∧
    ((code [0xC9, 0x01]).dispatched (.cmpImm 0x01)).inFlight =
      some ⟨0x0400, 0xC9, some ⟨(Instr.cmpImm 0x01).descriptor, 0x0401⟩⟩ := by decide
theorem witness_UndispatchedOpcodeFaultsPrecisely :
    ((code [0x08]).es = .fetching ∧ (code [0x08]).read (code [0x08]).pc ∈ undispatchedBytes) ∧
    ((code [0xF8]).es = .fetching ∧ (code [0xF8]).read (code [0xF8]).pc ∈ undispatchedBytes) := by decide
theorem witness_FaultedStepChangesNothingElse :
    (∃ t, (code [0x02]).es = .fetching ∧ step (code [0x02]) = .next t ∧ t.es = .faulted) ∧
    (∃ t, (code [0x4C]).es = .fetching ∧ step (code [0x4C]) = .next t ∧ t.es = .faulted) :=
  ⟨⟨_, rfl, rfl, rfl⟩, ⟨_, rfl, rfl, rfl⟩⟩
theorem witness_StoppedEngineRunsNothing :
    ({ code [] with es := .halted } : State).es = .halted ∧ ({ code [] with es := .faulted } : State).es = .faulted :=
  ⟨rfl, rfl⟩
theorem witness_StepAnswersNextUnlessFaulted :
    (code [0x02]).es ≠ .faulted ∧ ({ code [] with es := .halted } : State).es ≠ .faulted := by decide
theorem witness_OnlyZeroOpcodeHalts :
    (∃ t, (code [0x00]).es = .fetching ∧ step (code [0x00]) = .next t ∧ t.es = .halted) ∧
    (∃ t, (code [0xEA]).es = .fetching ∧ step (code [0xEA]) = .next t ∧ t.es ≠ .halted) :=
  ⟨⟨_, rfl, rfl, rfl⟩, ⟨_, rfl, rfl, by decide⟩⟩
theorem witness_LoadsSetRegisterAndZn :
    (Instr.ldaIndY 0xFF).mnemonic = .LDA ∧ (Instr.ldxZpY 0xFF).mnemonic = .LDX ∧ (Instr.ldyAbsX 0xFFFF).mnemonic = .LDY := by
  decide
theorem witness_StoresWriteOneByte :
    (Instr.staIndX 0xFF).mnemonic = .STA ∧ (Instr.stxZpY 0xFF).mnemonic = .STX ∧ (Instr.styAbs 0xFFFF).mnemonic = .STY := by
  decide
theorem witness_IncrementMemoryWritesBack :
    (Instr.incZpX 0xFF).mnemonic = .INC ∧ (Instr.incAbsX 0xFFFF).mnemonic = .INC := by decide
theorem witness_BitwiseCombineIntoAccumulator :
    (Instr.andImm 0xFF).mnemonic = .AND ∧ (Instr.oraIndX 0xFF).mnemonic = .ORA ∧ (Instr.eorAbsY 0xFFFF).mnemonic = .EOR := by
  decide
theorem witness_AdcAddsWithCarry :
    (Instr.adcImm 0xFF).mnemonic = .ADC ∧ Flag.I ∈ [Flag.I, .D, .B, .B2] ∧ Flag.B2 ∈ [Flag.I, .D, .B, .B2] := by decide
theorem witness_SbcAddsNegatedOperand :
    (Instr.sbcImm 0x80).mnemonic = .SBC ∧ (Instr.sbcZp 0x10).mnemonic = .SBC ∧ getFlag (code []).p .C = false := by decide
theorem witness_AccumulatorShiftsMoveOneBit :
    Instr.rolA ∈ [Instr.aslA, .lsrA, .rolA, .rorA] ∧ Instr.rolA.mnemonic ∈ [.ASL, .ROL] ∧
    Instr.rorA ∈ [Instr.aslA, .lsrA, .rolA, .rorA] ∧ Instr.rorA.mnemonic ∈ [.LSR, .ROR] ∧ Flag.V ∉ [Flag.C, .Z, .N] := by
  decide
theorem witness_MemoryShiftsMoveOneBit :
    ((Instr.aslZp 0x10).mnemonic ∈ [.ASL, .ROL] ∧ (Instr.aslZp 0x10).descriptor.form ≠ .accumulator) ∧
    ((Instr.rorAbsX 0xFFFF).mnemonic ∈ [.LSR, .ROR] ∧ (Instr.rorAbsX 0xFFFF).descriptor.form ≠ .accumulator) := by decide
theorem witness_BitTestsWithoutWriting :
    (Instr.bitZp 0x10).mnemonic = .BIT ∧ (Instr.bitAbs 0x1234).mnemonic = .BIT ∧ Flag.C ∉ [Flag.Z, .V, .N] := by decide
/-- A row taken, a row not taken, and a row taken with the offset byte 0xFF. -/
theorem witness_BranchStepGoesToTarget :
    (let s := code [0x90, 0x80]
     s.es = .fetching ∧ s.read s.pc = 0x90 ∧ getFlag s.p .C = false ∧ s.read (s.pc + 1) ≠ 0xFF) ∧
    (let s := code [0x70, 0x7F]
     s.es = .fetching ∧ s.read s.pc = 0x70 ∧ getFlag s.p .V ≠ true) ∧
    (let s := code [0xD0, 0xFF]
     s.es = .fetching ∧ s.read s.pc = 0xD0 ∧ getFlag s.p .Z = false ∧ s.read (s.pc + 1) = 0xFF) := by decide
theorem witness_NopOnlyAdvancesPc :
    (code [0xEA]).es = .fetching ∧ (code [0xEA]).read (code [0xEA]).pc = 0xEA ∧ decodeBytes 0xEA 0 0 = some .nop :=
  ⟨rfl, rfl, rfl⟩
theorem witness_BrkHaltsAfterItsByte : (code [0x00]).es = .fetching ∧ (code [0x00]).read (code [0x00]).pc = 0x00 :=
  ⟨rfl, rfl⟩
theorem witness_DecodedOperandIsResolved :
    (let s := code [0xA9, 0x80]
     decodeBytes (s.read s.pc) (s.read (s.pc + 1)) (s.read (s.pc + 2)) = some (.ldaImm 0x80)) ∧
    (let s := code [0x61, 0xFF]
     decodeBytes (s.read s.pc) (s.read (s.pc + 1)) (s.read (s.pc + 2)) = some (.adcIndX 0xFF)) := ⟨rfl, rfl⟩
theorem witness_NoneModeRaisesInvalidAddressing :
    ((code [0xA9, 0x01]).dispatched (.ldaImm 0x01)).inFlight =
      some ⟨0x0400, 0xA9, some ⟨(Instr.ldaImm 0x01).descriptor, 0x0401⟩⟩ ∧
    (Instr.bitZp 0x10).mnemonic ∈ [.LDA, .LDX, .LDY, .STA, .STX, .STY, .INC, .AND, .ORA, .EOR, .ADC, .SBC, .BIT] ∧
    (Instr.rolZp 0x10).mnemonic ∈ [.ASL, .LSR, .ROL, .ROR] ∧ (Instr.rolZp 0x10).descriptor.form ≠ .accumulator := by decide
theorem witness_CanonicalMemoriesAreExtensional :
    Memory.wf [(0, 1), (65535, 2)] = true ∧
    ∀ addr : Addr, Memory.read [(0, 1), (65535, 2)] addr.toNat = Memory.read [(0, 1), (65535, 2)] addr.toNat :=
  ⟨rfl, fun _ => rfl⟩
theorem witness_StackPointerSurvivesEveryStep :
    (∃ t, step (code [0x9A]) = .next t) ∧ (∃ t, step (code [0x20]) = .next t) := ⟨⟨_, rfl⟩, ⟨_, rfl⟩⟩
theorem witness_UnusedFlagsAreInertStorage :
    (∃ t, step (code [0x69, 0x01]) = .next t) ∧ (∃ t, step (code [0xF8]) = .next t) ∧
    Flag.D ∈ [Flag.I, .D, .B, .B2] := ⟨⟨_, rfl⟩, ⟨_, rfl⟩, by decide⟩
/-- C, V, Z and N each differ after some instruction. -/
theorem witness_OnlyListedInstructionsWriteFlags :
    (∃ t, exec (.adcImm 0x01) (start 0xFF 0 0 0x24 0 []) = .next t ∧ getFlag t.p .C ≠ getFlag 0x24 .C) ∧
    (∃ t, exec (.adcImm 0x01) (start 0x7F 0 0 0x24 0 []) = .next t ∧ getFlag t.p .V ≠ getFlag 0x24 .V) ∧
    (∃ t, exec (.ldaImm 0x00) (start 0x7F 0 0 0x24 0 []) = .next t ∧ getFlag t.p .Z ≠ getFlag 0x24 .Z) ∧
    (∃ t, exec (.ldaImm 0x80) (start 0x7F 0 0 0x24 0 []) = .next t ∧ getFlag t.p .N ≠ getFlag 0x24 .N) :=
  ⟨⟨_, rfl, by decide⟩, ⟨_, rfl, by decide⟩, ⟨_, rfl, by decide⟩, ⟨_, rfl, by decide⟩⟩
/-- A, X, Y, pc, a memory byte, es and fault each differ after some instruction. -/
theorem witness_OnlyListedInstructionsWriteState :
    (∃ t, exec .aslA (start 0x01 0 0 0x24 0 []) = .next t ∧ t.a ≠ 0x01) ∧
    (∃ t, exec .inx (start 0 0xFF 0 0x24 0 []) = .next t ∧ t.x ≠ 0xFF) ∧
    (∃ t, exec .iny (start 0 0 0xFF 0x24 0 []) = .next t ∧ t.y ≠ 0xFF) ∧
    (∃ t, exec (.bcc 5) (start 0 0 0 0x24 0 []) = .next t ∧ t.pc ≠ 0) ∧
    (∃ t, exec (.incZp 0x10) (start 0 0 0 0x24 0 []) = .next t ∧ t.mem ≠ [] ∧
      Operand.ea (Instr.incZp 0x10).operand (start 0 0 0 0x24 0 []) = some 0x0010 ∧ (0x0011 : Addr) ≠ 0x0010) ∧
    (∃ t, exec .brk (start 0 0 0 0x24 0 []) = .next t ∧ t.es ≠ .fetching) ∧
    (∃ t, exec .pha ((code [0x48]).dispatched .pha) = .next t ∧ t.fault ≠ none) :=
  ⟨⟨_, rfl, by decide⟩, ⟨_, rfl, by decide⟩, ⟨_, rfl, by decide⟩, ⟨_, rfl, by decide⟩,
    ⟨_, rfl, by decide, rfl, by decide⟩, ⟨_, rfl, by decide⟩, ⟨_, rfl, by decide⟩⟩
theorem witness_NextFetchIsAfterInstruction :
    (let s := code [0xFE, 0x34, 0x12]
     s.es = .fetching ∧ decodeBytes (s.read s.pc) (s.read (s.pc + 1)) (s.read (s.pc + 2)) = some (.incAbsX 0x1234)) ∧
    (Instr.incAbsX 0x1234).mnemonic.dispatched = true ∧ (Instr.incAbsX 0x1234).branchOffset = none ∧
    (Instr.incAbsX 0x1234).mnemonic ≠ .BRK := ⟨⟨rfl, rfl⟩, rfl, rfl, by decide⟩
/-- STA to its own operand byte, a shift to the next instruction's opcode, INC at the top of memory. -/
theorem witness_StoreIsSeenByNextFetch :
    (let s := code [0x8D, 0x02, 0x04]
     s.es = .fetching ∧ decodeBytes (s.read s.pc) (s.read (s.pc + 1)) (s.read (s.pc + 2)) = some (.staAbs 0x0402)) ∧
    (let s := code [0x2E, 0x03, 0x04]
     s.es = .fetching ∧ decodeBytes (s.read s.pc) (s.read (s.pc + 1)) (s.read (s.pc + 2)) = some (.rolAbs 0x0403)) ∧
    (let s := code [0xEE, 0xFF, 0xFF]
     s.es = .fetching ∧ decodeBytes (s.read s.pc) (s.read (s.pc + 1)) (s.read (s.pc + 2)) = some (.incAbs 0xFFFF)) ∧
    ((Instr.staAbs 0x0402).mnemonic = .STA ∧ (Instr.stxZpY 0xFF).mnemonic = .STX ∧ (Instr.styZp 0).mnemonic = .STY ∧
      (Instr.incAbs 0xFFFF).mnemonic = .INC ∧ (Instr.rolAbs 0x0403).mnemonic ∈ [.ASL, .LSR, .ROL, .ROR] ∧
      (Instr.rolAbs 0x0403).descriptor.form ≠ .accumulator) :=
  ⟨⟨rfl, rfl⟩, ⟨rfl, rfl⟩, ⟨rfl, rfl⟩, by decide⟩
theorem witness_LoadCopiesProgramAndVector :
    (List.replicate 0x8000 (0xEA : Byte)).length ≤ 0x8000 ∧ ([] : List Byte).length ≤ 0x8000 ∧
    0x8000 < (List.replicate 0x8001 (0xEA : Byte)).length := by
  rw [List.length_replicate, List.length_replicate]; decide
theorem witness_LoadAndRunStartsAtOrigin :
    (List.replicate 0x8000 (0xEA : Byte)).length ≤ 0x8000 ∧
    0x8000 < (List.replicate 0x8001 (0x00 : Byte)).length := by
  rw [List.length_replicate, List.length_replicate]; decide
theorem witness_RunReturnsOnlyWhenStopped :
    (code [0x00]).Inv ∧ (hostRun 1 (code [0x00])).1 ≠ .notEnded ∧ (code [0x00]).es ≠ .faulted ∧
    (State.Inv { code [0x00] with es := .halted } ∧ ({ code [0x00] with es := .halted } : State).es ≠ .faulted) :=
  ⟨⟨by decide, by decide, by decide, by decide⟩, by decide, by decide,
    ⟨by decide, by decide, by decide, by decide⟩, by decide⟩
/-- A step that ends Halted, one that ends Faulted, one that goes on. -/
theorem witness_RunReturnsOnlyWhenStopped_each_end :
    (∃ t, step (code [0x00]) = .next t ∧ t.es = .halted) ∧ (∃ t, step (code [0x02]) = .next t ∧ t.es = .faulted) ∧
    (∃ t, step (code [0xEA]) = .next t ∧ t.es = .fetching) := ⟨⟨_, rfl, rfl⟩, ⟨_, rfl, rfl⟩, ⟨_, rfl, rfl⟩⟩
theorem witness_HostStepReturnsByEngineState :
    (code [0x00]).es = .fetching ∧ (code [0x02]).es = .fetching ∧ (code [0xEA]).es = .fetching := by decide
theorem witness_HostWritesLeaveEngineState :
    HostAction.writeP 0xFF ∈
      [HostAction.writeReg .A 0xFF, .writeP 0xFF, .writeSp 0xFF, .writePc 0xFFFF, .writeMem 0xFFFF 0xFF, .load [0x00]] := by
  decide
/-- The ends of the range, and the offset -1. -/
theorem witness_AssembledOffsetSumsToTarget :
    (assembleOffset 0x0400 0x0481 = some 127 ∧ (code [0xD0, 0x7F]).read 0x0401 = byteOfOffset 127) ∧
    (assembleOffset 0x0400 0x0382 = some (-128) ∧ (code [0xD0, 0x80]).read 0x0401 = byteOfOffset (-128)) ∧
    (assembleOffset 0x0400 0x0401 = some (-1) ∧ (code [0xD0, 0xFF]).read 0x0401 = byteOfOffset (-1)) ∧
    (code [0xD0, 0xFF]).es = .fetching ∧ (code [0xD0, 0xFF]).read (code [0xD0, 0xFF]).pc = 0xD0 ∧
    getFlag (code [0xD0, 0xFF]).p .Z = false ∧ offsetInRange (-128) = true ∧
    (0x0400 : Addr) + 2 + BitVec.ofInt 16 (-128) = 0x0382 := by decide

end Sys2Proof.Tests
end

/-! The invariant between steps (R32, R33, R34, R107): at reset, over every step, and over every action of the
host. Settles O1, O4, O5 and O6. -/
namespace Sys2Proof.Machine

/-! ### What keeps the invariant -/

/-- Between steps an engine that is not Faulted holds no record (R33). -/
theorem State.Inv.fault_none {s : State} (hs : s.Inv) (he : s.es ≠ .faulted) : s.fault = none := by
  simpa using mt hs.recorded.mp he

/-- The invariant speaks of memory, es, fault and what is in flight alone. -/
theorem State.Inv.of_frame {s t : State} (hs : s.Inv) (hmem : Memory.wf t.mem = true) (hes : t.es = s.es)
    (hfault : t.fault = s.fault) (hidle : t.inFlight = s.inFlight) : t.Inv :=
  ⟨hmem, hes ▸ hs.between, hidle.trans hs.idle, by rw [hfault, hes]; exact hs.recorded⟩

/-- An engine that is not Faulted may be set to Fetching, as `run` does (R112). -/
theorem State.Inv.resume {s : State} (hs : s.Inv) (he : s.es ≠ .faulted) : { s with es := .fetching }.Inv :=
  ⟨hs.memory, by simp, hs.idle, by simp [hs.fault_none he]⟩

/-- The end of a step leaves Dispatching and drops what was in flight (R34, R107). -/
theorem State.finish_inv {u : State} (hmem : Memory.wf u.mem = true)
    (hrec : u.fault.isSome = true ↔ u.es = .faulted) : u.finish.Inv := by
  obtain ⟨pc, hfinish⟩ := u.finish_eq
  rw [hfinish]
  by_cases hd : u.es = .dispatching <;> exact ⟨hmem, by simp [hd], rfl, by simpa [hd] using hrec⟩

/-- An instruction rule that starts with no record leaves one exactly when it leaves Faulted (R33). -/
theorem exec_keeps_recorded {i : Instr} {s t : State} (h : exec i s = .next t) (he : s.es ≠ .faulted)
    (hn : s.fault = none) : t.fault.isSome = true ↔ t.es = .faulted := by
  obtain ⟨-, hes, hf⟩ | ⟨-, hes, hf⟩ | ⟨-, -, hes, hf⟩ := exec_engineState h
  · simp [hes, hf, hn]
  · simp [hes, hf]
  · simp [hes, hf, hn, he]

/-- A step keeps the invariant. -/
theorem step_keeps_inv {s t : State} (hs : s.Inv) (h : step s = .next t) : t.Inv := by
  obtain ⟨-, -, rfl⟩ | ⟨-, -, rfl⟩ | ⟨hf, i, u, -, hu, rfl⟩ := step_cases h
  · exact hs
  · exact ⟨hs.memory, by simp, rfl, by simp⟩
  · have hn : (s.dispatched i).fault = none := hs.fault_none (by simp [hf])
    exact State.finish_inv (exec_keeps_wf hu hs.memory) (exec_keeps_recorded hu (by simp [State.dispatched]) hn)

/-! ### The host's entry points -/

theorem State.Inv.write {s : State} (hs : s.Inv) (addr : Addr) (v : Byte) : (s.write addr v).Inv :=
  hs.of_frame (State.wf_write addr v hs.memory) rfl rfl rfl

theorem State.Inv.setReg {s : State} (hs : s.Inv) (r : Reg) (v : Byte) : (s.setReg r v).Inv :=
  hs.of_frame (by simpa using hs.memory) (by simp) (by simp) (by simp)

theorem State.Inv.writeBytes {s : State} (hs : s.Inv) (addr : Addr) (bytes : List Byte) :
    (s.writeBytes addr bytes).Inv := by
  induction bytes generalizing s addr with
  | nil => exact hs
  | cons b bs ih => exact ih (hs.write addr b) (addr + 1)

theorem State.Inv.hostReset {s : State} (hs : s.Inv) (params : Params) : (hostReset params s).Inv :=
  ⟨hs.memory, by simp, hs.idle, by simp⟩

theorem State.Inv.hostLoad {s : State} (hs : s.Inv) (bytes : List Byte) : (hostLoad bytes s).2.Inv := by
  unfold Machine.hostLoad
  split
  · exact hs
  · exact ((hs.writeBytes _ bytes).write _ _).write _ _

theorem State.Inv.hostStep {s : State} (hs : s.Inv) : (hostStep s).2.Inv := by
  unfold Machine.hostStep
  split
  next t h => exact step_keeps_inv hs h
  · exact hs
  · exact hs

/-- The loop of `run` keeps the invariant, by induction on the bound of its steps. -/
theorem State.Inv.runLoop {s : State} (hs : s.Inv) (fuel : Nat) : (runLoop fuel s).2.Inv := by
  induction fuel generalizing s with
  | zero => exact hs
  | succ fuel ih =>
    unfold Machine.runLoop
    split
    next t h =>
      have ht := step_keeps_inv hs h
      split
      · exact ht
      · exact ih ht
    · exact hs
    · exact hs

theorem State.Inv.hostRun {s : State} (hs : s.Inv) (fuel : Nat) : (hostRun fuel s).2.Inv := by
  unfold Machine.hostRun
  split
  · exact hs
  next he => exact (hs.resume he).runLoop fuel

theorem State.Inv.hostLoadAndRun {s : State} (hs : s.Inv) (params : Params) (fuel : Nat) (bytes : List Byte) :
    (hostLoadAndRun params fuel bytes s).2.Inv := by
  have hload := hs.hostLoad bytes
  unfold Machine.hostLoadAndRun
  split
  next t h => rw [h] at hload; exact (hload.hostReset params).hostRun fuel
  next r t _ h => rw [h] at hload; exact hload

/-! ### The statements -/

/-- Settles O1: each field as construction writes it; zeroed memory is the empty list (R36). -/
theorem constructSetsEveryField : Obligations.ConstructSetsEveryField :=
  fun _ => ⟨rfl, rfl, rfl, rfl, rfl, rfl, fun _ => rfl, rfl, rfl, rfl⟩

/-- Settles O4: both states hold the empty memory, are Fetching and hold no record. -/
theorem invariantHoldsAtReset : Obligations.InvariantHoldsAtReset :=
  ⟨⟨rfl, by decide, rfl, by decide⟩, fun _ => ⟨rfl, nofun, rfl, ⟨nofun, nofun⟩⟩⟩

/-- Settles O5, by the three ways a step answers a next state. -/
theorem stepKeepsInvariant : Obligations.StepKeepsInvariant := fun _ _ => step_keeps_inv

/-- Settles O6, one entry point at a time; `run` by induction on its bound. -/
theorem hostActionsKeepInvariant : Obligations.HostActionsKeepInvariant := by
  intro act s hs
  cases act with
  | load bytes => exact hs.hostLoad bytes
  | reset params => exact hs.hostReset params
  | run fuel => exact hs.hostRun fuel
  | step => exact hs.hostStep
  | loadAndRun params fuel bytes => exact hs.hostLoadAndRun params fuel bytes
  | writeReg r v => exact hs.setReg r v
  | writeP v => exact hs.of_frame hs.memory rfl rfl rfl
  | writeSp v => exact hs.of_frame hs.memory rfl rfl rfl
  | writePc v => exact hs.of_frame hs.memory rfl rfl rfl
  | writeMem addr v => exact hs.write addr v

end Sys2Proof.Machine

/-! Memories in canonical form that read alike are the same list (log 21). Settles O41. -/
namespace Sys2Proof.Machine

/-- What the canonical form says of a memory's first entry and of the rest. -/
theorem Memory.wfFrom_cons {lo k : Nat} {v : Byte} {m : Memory} :
    Memory.wfFrom lo ((k, v) :: m) = true ↔
      (lo ≤ k ∧ k < Config.memSize ∧ v ≠ 0) ∧ Memory.wfFrom (k + 1) m = true := by
  simp only [Memory.wfFrom, Bool.and_eq_true, decide_eq_true_eq]

/-- Below the address a canonical form starts from, every byte reads 0x00. -/
theorem Memory.read_of_lt {lo a : Nat} {m : Memory} (h : Memory.wfFrom lo m = true) (ha : a < lo) :
    Memory.read m a = 0 := by
  induction m generalizing lo with
  | nil => rfl
  | cons cell m ih =>
    obtain ⟨k, v⟩ := cell
    obtain ⟨⟨hlo, -, -⟩, hm⟩ := Memory.wfFrom_cons.mp h
    rw [Memory.read, if_neg (by omega)]
    exact ih hm (by omega)

/-- The first entry of a canonical form is at an address of the memory (R40). -/
theorem Memory.head_lt_memSize {lo k : Nat} {v : Byte} {m : Memory}
    (h : Memory.wfFrom lo ((k, v) :: m) = true) : k < Config.memSize := by
  obtain ⟨⟨-, hk, -⟩, -⟩ := Memory.wfFrom_cons.mp h
  exact hk

/-- The address of the first entry of a canonical form reads a byte other than 0x00. -/
theorem Memory.read_head_ne {lo k : Nat} {v : Byte} {m : Memory} (h : Memory.wfFrom lo ((k, v) :: m) = true) :
    Memory.read ((k, v) :: m) k ≠ 0 := by
  obtain ⟨⟨-, -, hv⟩, -⟩ := Memory.wfFrom_cons.mp h
  simpa [Memory.read] using hv

/-- Of two canonical memories that read alike, neither starts below the other: at the lower first entry one reads
0x00 and the other does not. -/
theorem Memory.head_le_of_read_eq {lo lo' k k' : Nat} {v v' : Byte} {m m' : Memory}
    (h : Memory.wfFrom lo ((k, v) :: m) = true) (h' : Memory.wfFrom lo' ((k', v') :: m') = true)
    (hr : ∀ a < Config.memSize, Memory.read ((k, v) :: m) a = Memory.read ((k', v') :: m') a) : k ≤ k' := by
  obtain ⟨hcell, hm⟩ := Memory.wfFrom_cons.mp h
  by_contra hlt
  have hzero : Memory.read ((k, v) :: m) k' = 0 :=
    Memory.read_of_lt (lo := k) (Memory.wfFrom_cons.mpr ⟨⟨le_rfl, hcell.2⟩, hm⟩) (by omega)
  exact Memory.read_head_ne h' ((hr k' (Memory.head_lt_memSize h')).symm.trans hzero)

/-- Canonical memories that read alike are equal, by induction along both lists: the first entries agree, and
below them both tails read 0x00. -/
theorem Memory.ext_of_wfFrom {lo lo' : Nat} {m m' : Memory} (h : Memory.wfFrom lo m = true)
    (h' : Memory.wfFrom lo' m' = true) (hr : ∀ a < Config.memSize, Memory.read m a = Memory.read m' a) :
    m = m' := by
  induction m generalizing lo lo' m' with
  | nil =>
    cases m' with
    | nil => rfl
    | cons cell' m' => exact absurd (hr _ (Memory.head_lt_memSize h')).symm (Memory.read_head_ne h')
  | cons cell m ih =>
    cases m' with
    | nil => exact absurd (hr _ (Memory.head_lt_memSize h)) (Memory.read_head_ne h)
    | cons cell' m' =>
      obtain ⟨k, v⟩ := cell
      obtain ⟨k', v'⟩ := cell'
      obtain ⟨-, hm⟩ := Memory.wfFrom_cons.mp h
      obtain ⟨-, hm'⟩ := Memory.wfFrom_cons.mp h'
      obtain rfl : k = k' :=
        le_antisymm (Memory.head_le_of_read_eq h h' hr)
          (Memory.head_le_of_read_eq h' h fun a ha => (hr a ha).symm)
      obtain rfl : v = v' := by simpa [Memory.read] using hr k (Memory.head_lt_memSize h)
      rw [ih hm hm' fun a ha => ?_]
      by_cases hak : a = k
      · rw [Memory.read_of_lt hm (by omega), Memory.read_of_lt hm' (by omega)]
      · simpa [Memory.read, hak] using hr a ha

/-- Settles O41: every address below 65536 is a 16-bit address. -/
theorem canonicalMemoriesAreExtensional : Obligations.CanonicalMemoriesAreExtensional := by
  intro m m' h h' hr
  refine Memory.ext_of_wfFrom h h' fun a ha => ?_
  simpa [Nat.mod_eq_of_lt (show a < 65536 from ha)] using hr (BitVec.ofNat 16 a)

end Sys2Proof.Machine

/-! Which instructions may change which part of the state (R21 to R28, R47, R109), read off `Effect`, and where the
next fetch is (R104). Settles O42, O44, O45 and O46. -/
namespace Sys2Proof.Machine

/-! ### The instructions that run a rule -/

/-- An instruction that stands with some choice in a rule's list is one of the list's mnemonics. -/
theorem mnemonic_mem_of_pair {β : Type} {i : Instr} {b : β} {l : List (Mnemonic × β)} {ms : List Mnemonic}
    (h : (i.mnemonic, b) ∈ l) (hsub : l.map Prod.fst ⊆ ms) : i.mnemonic ∈ ms :=
  hsub (List.mem_map_of_mem (f := Prod.fst) h)

/-- The accumulator forms are the four shifts of A (R170, R172, R174, R176). -/
theorem accumulator_forms {i : Instr} (h : i.descriptor.form = .accumulator) :
    i ∈ [Instr.aslA, .lsrA, .rolA, .rorA] := by
  cases i <;> simp [Instr.descriptor] at h ⊢

/-- The mnemonics of the branches are those with an offset (R73, R195). -/
theorem not_branch_of_branchOffset {i : Instr} (h : i.branchOffset = none) :
    i.mnemonic ∉ [.BCC, .BCS, .BEQ, .BNE, .BMI, .BPL, .BVC, .BVS] := by
  cases i <;> simp [Instr.branchOffset, Instr.mnemonic, Instr.descriptor] at h ⊢

/-! ### Flags -/

/-- C is written by the adder and the shifts alone (R26). -/
theorem exec_changes_carry {i : Instr} {s t : State} (h : exec i s = .next t)
    (hc : getFlag t.p .C ≠ getFlag s.p .C) : i.mnemonic ∈ [.ADC, .SBC, .ASL, .LSR, .ROL, .ROR] := by
  cases exec_effect h
  case add m n hm hi => rcases hi with ⟨hi, -⟩ | ⟨hi, -⟩ <;> simp [hi]
  case shiftAcc k hi hf => exact mnemonic_mem_of_pair hi (by simp)
  case shiftMem k ea hi hf hea => exact mnemonic_mem_of_pair hi (by simp)
  all_goals exact absurd (by simp [getFlag_znFlags, getFlag_setBitTest]) hc

/-- V is written by the adder and by BIT alone (R27). -/
theorem exec_changes_overflow {i : Instr} {s t : State} (h : exec i s = .next t)
    (hv : getFlag t.p .V ≠ getFlag s.p .V) : i.mnemonic ∈ [.ADC, .SBC, .BIT] := by
  cases exec_effect h
  case add m n hm hi => rcases hi with ⟨hi, -⟩ | ⟨hi, -⟩ <;> simp [hi]
  case bit m hi hm => simp [hi]
  all_goals exact absurd (by simp [getFlag_znFlags, getFlag_setShiftFlags, -State.setShiftFlags_p]) hv

/-- P changes at all only in an instruction that writes Z and N: stores, branches, NOP, BRK and undispatched
instructions keep it (R28, R109). -/
theorem exec_changes_status {i : Instr} {s t : State} (h : exec i s = .next t) (hp : t.p ≠ s.p) :
    i.mnemonic ∈ [.LDA, .LDX, .LDY, .TAX, .TXA, .TAY, .TYA, .INC, .INX, .INY, .AND, .ORA, .EOR, .ADC, .SBC,
      .ASL, .LSR, .ROL, .ROR, .BIT] := by
  cases exec_effect h
  case load r m hi hm => exact mnemonic_mem_of_pair hi (by simp)
  case transfer src dst hi => exact mnemonic_mem_of_pair hi (by simp)
  case incMem ea hi hea => simp [hi]
  case incReg r hi => exact mnemonic_mem_of_pair hi (by simp)
  case bitwise m r hm hi => rcases hi with ⟨hi, -⟩ | ⟨hi, -⟩ | ⟨hi, -⟩ <;> simp [hi]
  case add m n hm hi => rcases hi with ⟨hi, -⟩ | ⟨hi, -⟩ <;> simp [hi]
  case shiftAcc k hi hf => exact mnemonic_mem_of_pair hi (by simp)
  case shiftMem k ea hi hf hea => exact mnemonic_mem_of_pair hi (by simp)
  case bit m hi hm => simp [hi]
  case store | branch | nop | brk | undispatched => exact absurd rfl hp

/-- Settles O44, flag by flag. -/
theorem onlyListedInstructionsWriteFlags : Obligations.OnlyListedInstructionsWriteFlags := by
  intro i s t h
  refine ⟨exec_changes_carry h, exec_changes_overflow h, fun hzn => exec_changes_status h fun hp => ?_⟩
  simp [hp] at hzn

/-! ### Registers, memory and the engine -/

/-- A register's write leaves the other registers (R21). -/
theorem State.eq_of_reg_setReg_ne {s : State} {r q : Reg} {v : Byte}
    (h : (s.setReg r v).reg q ≠ s.reg q) : r = q := by
  by_contra hne
  exact h (by rw [State.reg_setReg, if_neg (Ne.symm hne)])

@[simp] theorem State.reg_setZN (s : State) (v : Byte) (q : Reg) : (s.setZN v).reg q = s.reg q := by
  cases q <;> rfl

@[simp] theorem State.reg_setShiftFlags (s : State) (k : Shift) (v r : Byte) (q : Reg) :
    (s.setShiftFlags k v r).reg q = s.reg q := by cases q <;> rfl

/-- The adder writes A and no other register (R110). -/
theorem State.eq_A_of_reg_addWithCarry_ne {s : State} {m : Byte} {q : Reg}
    (h : (s.addWithCarry m).reg q ≠ s.reg q) : q = .A := by
  cases q
  · rfl
  · exact absurd rfl h
  · exact absurd rfl h

/-- The mnemonics whose rule writes each register in every form; the shifts write A in their accumulator forms. -/
def Reg.writers : Reg → List Mnemonic
  | .A => [.LDA, .TXA, .TYA, .AND, .ORA, .EOR, .ADC, .SBC]
  | .X => [.LDX, .TAX, .INX]
  | .Y => [.LDY, .TAY, .INY]

/-- An instruction that stands with a register in a rule's list writes that register, if the list says so. -/
theorem mem_writers_of_pair {β : Type} {i : Instr} {b : β} {l : List (Mnemonic × β)} (f : β → Reg)
    (h : (i.mnemonic, b) ∈ l) (hl : ∀ c ∈ l, c.1 ∈ (f c.2).writers) : i.mnemonic ∈ (f b).writers := hl _ h

/-- A register changes only in an instruction that writes it (R21, R120 to R177). -/
theorem exec_changes_reg {i : Instr} {s t : State} (h : exec i s = .next t) {q : Reg} (hq : t.reg q ≠ s.reg q) :
    i.mnemonic ∈ q.writers ∨ (q = .A ∧ i ∈ [Instr.aslA, .lsrA, .rolA, .rorA]) := by
  cases exec_effect h
  case load r m hi hm =>
    obtain rfl := State.eq_of_reg_setReg_ne (by simpa using hq)
    exact .inl (mem_writers_of_pair id hi (by decide))
  case transfer src dst hi =>
    obtain rfl := State.eq_of_reg_setReg_ne (by simpa using hq)
    exact .inl (mem_writers_of_pair Prod.snd hi (by decide))
  case incReg r hi =>
    obtain rfl := State.eq_of_reg_setReg_ne (by simpa using hq)
    exact .inl (mem_writers_of_pair id hi (by decide))
  case bitwise m r hm hi =>
    obtain rfl := State.eq_of_reg_setReg_ne (by simpa using hq)
    rcases hi with ⟨hi, -⟩ | ⟨hi, -⟩ | ⟨hi, -⟩ <;> simp [hi, Reg.writers]
  case add m n hm hi =>
    obtain rfl := State.eq_A_of_reg_addWithCarry_ne hq
    rcases hi with ⟨hi, -⟩ | ⟨hi, -⟩ <;> simp [hi, Reg.writers]
  case shiftAcc k hi hf =>
    obtain rfl := State.eq_of_reg_setReg_ne (by simpa using hq)
    exact .inr ⟨rfl, accumulator_forms hf⟩
  case store | incMem | shiftMem | bit | branch | nop | brk | undispatched =>
    exact absurd (by cases q <;> rfl) hq

/-- The accumulator forms belong to the shifts (R72). -/
theorem form_ne_accumulator {i : Instr} (h : i.mnemonic ∉ [.ASL, .LSR, .ROL, .ROR]) :
    i.descriptor.form ≠ .accumulator := by
  intro hf
  have hi := accumulator_forms hf
  simp only [List.mem_cons, List.not_mem_nil, or_false] at hi
  obtain rfl | rfl | rfl | rfl := hi <;> exact h (by decide)

/-- Memory changes only in a store, INC or a memory shift (R47). -/
theorem exec_changes_mem {i : Instr} {s t : State} (h : exec i s = .next t) (hm : t.mem ≠ s.mem) :
    i.mnemonic ∈ [.STA, .STX, .STY, .INC, .ASL, .LSR, .ROL, .ROR] ∧ i.descriptor.form ≠ .accumulator := by
  cases exec_effect h
  case store r ea hi hea =>
    simp only [List.mem_cons, Prod.mk.injEq, List.not_mem_nil, or_false] at hi
    obtain ⟨hi, -⟩ | ⟨hi, -⟩ | ⟨hi, -⟩ := hi <;> exact ⟨by simp [hi], form_ne_accumulator (by simp [hi])⟩
  case incMem ea hi hea => exact ⟨by simp [hi], form_ne_accumulator (by simp [hi])⟩
  case shiftMem k ea hi hf hea => exact ⟨mnemonic_mem_of_pair hi (by simp), hf⟩
  case load | transfer | incReg | bitwise | add | shiftAcc | bit | branch | nop | brk | undispatched =>
    exact absurd (by simp) hm

/-- A store leaves every other address (R42). -/
theorem State.read_write_ne (s : State) {ea b : Addr} (v : Byte) (h : b ≠ ea) :
    (s.write ea v).read b = s.read b := by
  have hn : b.toNat ≠ ea.toNat := fun hn => h (BitVec.eq_of_toNat_eq hn)
  simp [State.read, Memory.read_write, hn]

/-- No instruction changes a byte at an address other than its operand's effective address (R47). -/
theorem exec_keeps_read {i : Instr} {s t : State} (h : exec i s = .next t) {ea b : Addr}
    (hea : Operand.ea i.operand s = some ea) (hb : b ≠ ea) : t.read b = s.read b := by
  cases exec_effect h
  case store r ea' hi hea' | incMem ea' hi hea' | shiftMem k ea' hi hf hea' =>
    obtain rfl : ea = ea' := Option.some.inj (hea.symm.trans hea')
    exact s.read_write_ne _ hb
  all_goals simp [State.read]

/-- pc is written by the branches alone (R22, R195). -/
theorem exec_changes_pc {i : Instr} {s t : State} (h : exec i s = .next t) (hpc : t.pc ≠ s.pc) :
    i.mnemonic ∈ [.BCC, .BCS, .BEQ, .BNE, .BMI, .BPL, .BVC, .BVS] := by
  cases exec_effect h
  case branch target hi => exact hi
  all_goals exact absurd (by simp) hpc

/-- es and the record are written by BRK and undispatched instructions alone (R33, R105, R222). -/
theorem exec_changes_engine {i : Instr} {s t : State} (h : exec i s = .next t)
    (he : t.es ≠ s.es ∨ t.fault ≠ s.fault) : i.mnemonic = .BRK ∨ i.mnemonic.dispatched = false := by
  obtain ⟨hi, -, -⟩ | ⟨hi, -, -⟩ | ⟨-, -, hes, hf⟩ := exec_engineState h
  · exact .inl hi
  · exact .inr hi
  · simp [hes, hf] at he

/-- Settles O45, field by field. -/
theorem onlyListedInstructionsWriteState : Obligations.OnlyListedInstructionsWriteState := by
  intro i s t h
  refine ⟨fun ha => ?_, fun hx => ?_, fun hy => ?_, exec_changes_pc h, exec_changes_mem h,
    fun ea b hea hb => exec_keeps_read h hea hb, exec_changes_engine h, exec_keeps h⟩
  · exact (exec_changes_reg h (q := .A) ha).imp_right And.right
  · exact (exec_changes_reg h (q := .X) hx).resolve_right nofun
  · exact (exec_changes_reg h (q := .Y) hy).resolve_right nofun

/-! ### Steps -/

/-- The end of a step keeps sp. -/
@[simp] theorem State.finish_sp (u : State) : u.finish.sp = u.sp := by
  obtain ⟨pc, h⟩ := u.finish_eq
  rw [h]

/-- Settles O42, by the three ways a step answers a next state. -/
theorem stackPointerSurvivesEveryStep : Obligations.StackPointerSurvivesEveryStep := by
  intro s t h
  obtain ⟨-, -, rfl⟩ | ⟨-, -, rfl⟩ | ⟨-, i, u, -, hu, rfl⟩ := step_cases h
  · rfl
  · rfl
  · exact u.finish_sp.trans (exec_keeps hu).1

/-- Past the opcode byte and the operand bytes is past the whole instruction (R104). -/
theorem advance_toNat (pc : Addr) (i : Instr) :
    (pc + 1 + BitVec.ofNat 16 (i.len - 1)).toNat = (pc.toNat + i.len) % 65536 := by
  obtain ⟨hlo, hhi⟩ := instr_len_pos i
  have hone : (1 : Addr).toNat = 1 := rfl
  simp only [BitVec.toNat_add, BitVec.toNat_ofNat, hone]
  omega

/-- Settles O46: the rule leaves pc and the engine alone, so the advance takes pc past the operand bytes. -/
theorem nextFetchIsAfterInstruction : Obligations.NextFetchIsAfterInstruction := by
  intro s i hf hdecode hdisp hbranch hbrk
  obtain ⟨u, hu, hstep⟩ := step_runs hf hdecode
  have hengine : u.es = (s.dispatched i).es ∧ u.fault = (s.dispatched i).fault := by
    have hnot := mt (exec_changes_engine hu) (by simp [hbrk, hdisp])
    simpa only [not_or, ne_eq, not_not] using hnot
  have hpc : u.pc = s.pc + 1 := by
    by_contra hne
    exact not_branch_of_branchOffset hbranch (exec_changes_pc hu hne)
  refine ⟨_, hstep, ?_⟩
  rw [finish_after_rule hu hengine.1]
  exact ⟨rfl, by simpa [hpc] using advance_toNat s.pc i, hengine.2, rfl⟩

end Sys2Proof.Machine

/-! I, D, B and B2 are storage no rule reads or writes (R29): replacing them commutes with every operation a step is
made of, hence with `step`. Settles O43. -/
namespace Sys2Proof.Machine

/-! ### The status byte -/

/-- The four flags without effect (R29). -/
def Flag.inert : Flag → Bool
  | .I | .D | .B | .B2 => true
  | .C | .Z | .V | .N => false

/-- `p` with I, D, B and B2, its bits 2 to 5 (log 5), taken from `q`. -/
def inertFrom (p q : Byte) : Byte := (p &&& 0xC3) ||| (q &&& 0x3C)

theorem getFlag_inertFrom (p q : Byte) (f : Flag) :
    getFlag (inertFrom p q) f = if f.inert then getFlag q f else getFlag p f := by
  cases f <;> simp [getFlag, inertFrom, Flag.bit, Flag.inert]

@[simp] theorem inertFrom_self (p : Byte) : inertFrom p p = p :=
  status_ext fun f => by rw [getFlag_inertFrom, ite_self]

/-- A write of one of the four other flags commutes with replacing the inert ones. -/
theorem setFlag_inertFrom (p q : Byte) {f : Flag} (v : Bool) (hf : f.inert = false) :
    setFlag (inertFrom p q) f v = inertFrom (setFlag p f v) q := by
  refine status_ext fun g => ?_
  by_cases hg : g = f
  · subst hg; simp [getFlag_inertFrom, hf]
  · simp [getFlag_inertFrom, getFlag_setFlag_other _ _ hg]

theorem znFlags_inertFrom (p q v : Byte) : znFlags (inertFrom p q) v = inertFrom (znFlags p v) q := by
  rw [znFlags, setFlag_inertFrom _ _ _ rfl, setFlag_inertFrom _ _ _ rfl]; rfl

/-! ### The state operations -/

/-- `s[q]`: the state with I, D, B and B2 taken from the byte `q`. -/
def State.withInert (s : State) (q : Byte) : State := s.setP (inertFrom s.p q)

@[simp] theorem State.withInert_self (s : State) : s.withInert s.p = s := by
  simp [State.withInert, State.setP]

theorem State.getFlag_withInert (s : State) (q : Byte) (f : Flag) :
    getFlag (s.withInert q).p f = if f.inert then getFlag q f else getFlag s.p f :=
  getFlag_inertFrom s.p q f

@[simp] theorem State.withInert_reg (s : State) (q : Byte) (r : Reg) : (s.withInert q).reg r = s.reg r := by
  cases r <;> rfl
@[simp] theorem State.withInert_a (s : State) (q : Byte) : (s.withInert q).a = s.a := rfl
@[simp] theorem State.withInert_x (s : State) (q : Byte) : (s.withInert q).x = s.x := rfl
@[simp] theorem State.withInert_y (s : State) (q : Byte) : (s.withInert q).y = s.y := rfl
@[simp] theorem State.withInert_read (s : State) (q : Byte) (addr : Addr) :
    (s.withInert q).read addr = s.read addr := rfl
theorem State.withInert_flag (s : State) (q : Byte) {f : Flag} (hf : f.inert = false) :
    (s.withInert q).flag f = s.flag f := by
  simp [State.getFlag_withInert, hf]

@[simp] theorem State.withInert_write (s : State) (q : Byte) (addr : Addr) (v : Byte) :
    (s.withInert q).write addr v = (s.write addr v).withInert q := rfl
@[simp] theorem State.withInert_setPc (s : State) (q : Byte) (target : Addr) :
    (s.withInert q).setPc target = (s.setPc target).withInert q := rfl
@[simp] theorem State.withInert_enterHalted (s : State) (q : Byte) :
    (s.withInert q).enterHalted = s.enterHalted.withInert q := rfl
@[simp] theorem State.withInert_setReg (s : State) (q : Byte) (r : Reg) (v : Byte) :
    (s.withInert q).setReg r v = (s.setReg r v).withInert q := by cases r <;> rfl

theorem State.withInert_setFlag (s : State) (q : Byte) {f : Flag} (v : Bool) (hf : f.inert = false) :
    (s.withInert q).setFlag f v = (s.setFlag f v).withInert q := by
  simp [State.withInert, State.setFlag, State.setP, setFlag_inertFrom _ _ _ hf]

@[simp] theorem State.withInert_setZN (s : State) (q v : Byte) :
    (s.withInert q).setZN v = (s.setZN v).withInert q := by
  simp [State.withInert, State.setZN, State.setP, znFlags_inertFrom]

@[simp] theorem State.withInert_addWithCarry (s : State) (q m : Byte) :
    (s.withInert q).addWithCarry m = (s.addWithCarry m).withInert q := by
  simp only [State.addWithCarry, State.withInert_flag s q (f := .C) rfl,
    State.withInert_setFlag (f := .C) (hf := rfl), State.withInert_setFlag (f := .V) (hf := rfl),
    State.withInert_reg, State.withInert_setReg, State.withInert_setZN]

@[simp] theorem State.withInert_setBitTest (s : State) (q m : Byte) :
    (s.withInert q).setBitTest m = (s.setBitTest m).withInert q := by
  simp only [State.setBitTest, State.withInert_reg, State.withInert_setFlag (f := .Z) (hf := rfl),
    State.withInert_setFlag (f := .V) (hf := rfl), State.withInert_setFlag (f := .N) (hf := rfl)]

@[simp] theorem State.withInert_setShiftFlags (s : State) (q : Byte) (k : Shift) (v r : Byte) :
    (s.withInert q).setShiftFlags k v r = (s.setShiftFlags k v r).withInert q := by
  simp only [State.setShiftFlags, State.withInert_setFlag (f := .C) (hf := rfl), State.withInert_setZN]

theorem State.withInert_advance (s : State) (q : Byte) : (s.withInert q).advance = s.advance.withInert q := by
  simp only [State.advance, State.withInert, State.setP]
  split <;> rfl

theorem State.withInert_finish (s : State) (q : Byte) : (s.withInert q).finish = s.finish.withInert q := by
  by_cases hd : s.es = .dispatching
  · have hd' : (s.withInert q).es = .dispatching := hd
    simp only [State.finish, hd, hd', if_true, State.withInert_advance]; rfl
  · have hd' : (s.withInert q).es ≠ .dispatching := hd
    rw [s.finish_of_stopped hd, (s.withInert q).finish_of_stopped hd']; rfl

/-! ### The rules -/

/-- An answer with its next state changed by `g`. -/
def mapNext (g : State → State) : Result → Result
  | .next t => .next (g t)
  | .fault r => .fault r
  | .refused r => .refused r

theorem raiseError_withInert (code : ErrorCode) (s : State) (q : Byte) :
    raiseError code (s.withInert q) = mapNext (·.withInert q) (raiseError code s) := by
  cases hc : s.inFlight with
  | none => simp only [raiseError, hc, show (s.withInert q).inFlight = none from hc]; rfl
  | some c =>
    rw [raiseError_of_inFlight code hc, raiseError_of_inFlight code (s := s.withInert q) hc]; rfl

theorem withValue_withInert (o : Operand) (s : State) (q : Byte) {rule' rule : Byte → State}
    (hrule : ∀ m, rule' m = (rule m).withInert q) :
    withValue o (s.withInert q) rule' = mapNext (·.withInert q) (withValue o s rule) := by
  have hvalue : Operand.value o (s.withInert q) = Operand.value o s := by cases o <;> rfl
  cases h : Operand.value o s with
  | none => simp only [withValue, hvalue, h, raiseError_withInert]
  | some m => simp only [withValue, hvalue, h, hrule, mapNext]

theorem withAddress_withInert (o : Operand) (s : State) (q : Byte) {rule' rule : Addr → State}
    (hrule : ∀ ea, rule' ea = (rule ea).withInert q) :
    withAddress o (s.withInert q) rule' = mapNext (·.withInert q) (withAddress o s rule) := by
  have haddress : Operand.ea o (s.withInert q) = Operand.ea o s := by cases o <;> rfl
  cases h : Operand.ea o s with
  | none => simp only [withAddress, haddress, h, raiseError_withInert]
  | some ea => simp only [withAddress, haddress, h, hrule, mapNext]

theorem branchRule_withInert (cond : Bool) (off : Int) (s : State) (q : Byte) :
    branchRule cond off (s.withInert q) = mapNext (·.withInert q) (branchRule cond off s) := by
  cases cond <;> rfl

theorem shiftAccRule_withInert (k : Shift) (s : State) (q : Byte) :
    shiftAccRule k (s.withInert q) = mapNext (·.withInert q) (shiftAccRule k s) := by
  simp only [shiftAccRule, mapNext, State.withInert_reg, State.withInert_flag s q (f := .C) rfl,
    State.withInert_setReg, State.withInert_setShiftFlags]

theorem shiftMemRule_withInert (k : Shift) (o : Operand) (s : State) (q : Byte) :
    shiftMemRule k o (s.withInert q) = mapNext (·.withInert q) (shiftMemRule k o s) :=
  withAddress_withInert o s q fun ea => by
    simp only [State.withInert_read, State.withInert_flag s q (f := .C) rfl, State.withInert_write,
      State.withInert_setShiftFlags]

/-- No instruction rule reads or writes an inert flag (R29), one shared rule at a time. -/
theorem exec_withInert (i : Instr) (s : State) (q : Byte) :
    exec i (s.withInert q) = mapNext (·.withInert q) (exec i s) := by
  rw [exec_eq_ruleOf, exec_eq_ruleOf]
  cases hi : i.mnemonic <;> simp only [ruleOf, hi]
  case LDA | LDX | LDY | AND | ORA | EOR | ADC | SBC | BIT =>
    exact withValue_withInert _ s q fun m => by simp
  case STA | STX | STY | INC => exact withAddress_withInert _ s q fun ea => by simp
  case TAX | TXA | TAY | TYA => simp [transferRule, mapNext]
  case INX | INY => simp [incRegRule, mapNext]
  case ASL | LSR | ROL | ROR =>
    split
    · exact shiftAccRule_withInert _ s q
    · exact shiftMemRule_withInert _ _ s q
  case BCC | BCS | BEQ | BNE | BMI | BPL | BVC | BVS =>
    rw [s.withInert_flag q rfl]
    exact branchRule_withInert _ _ s q
  case NOP | BRK => rfl
  all_goals exact raiseError_withInert _ s q

/-! ### Steps and runs -/

theorem finishStep_withInert (r : Result) (q : Byte) :
    finishStep (mapNext (·.withInert q) r) = mapNext (·.withInert q) (finishStep r) := by
  cases r with
  | next t => exact congrArg Host.Outcome.next (t.withInert_finish q)
  | fault => rfl
  | refused => rfl

/-- A step of `s[q]` is the step of `s`, its next state with the inert flags of `q` (R29). -/
theorem step_withInert (s : State) (q : Byte) : step (s.withInert q) = mapNext (·.withInert q) (step s) := by
  cases hs : s.es
  case fetching =>
    cases hi : s.instrAt s.pc with
    | none => rw [step_of_absent hs hi, step_of_absent (s := s.withInert q) hs hi]; rfl
    | some i =>
      rw [step_of_instr hs hi, step_of_instr (s := s.withInert q) hs hi, ← finishStep_withInert, ← exec_withInert]
      rfl
  case halted | faulted | dispatching => simp only [step, hs, show (s.withInert q).es = _ from hs]; rfl

/-- A step keeps I, D, B and B2: it is the step of the state with these four taken from its own P. -/
theorem step_keeps_inert {s t : State} {f : Flag} (hf : f.inert = true) (h : step s = .next t) :
    getFlag t.p f = getFlag s.p f := by
  have hself : t = t.withInert s.p := by
    have hstep := step_withInert s s.p
    rw [s.withInert_self, h] at hstep
    exact Host.Outcome.next.inj hstep
  rw [hself, State.getFlag_withInert, if_pos hf]

/-- The loop of `run` keeps I, D, B and B2, by induction on the bound of its steps. -/
theorem runLoop_keeps_inert {f : Flag} (hf : f.inert = true) (fuel : Nat) (s : State) :
    getFlag (runLoop fuel s).2.p f = getFlag s.p f := by
  induction fuel generalizing s with
  | zero => rfl
  | succ fuel ih =>
    unfold runLoop
    split
    next t h =>
      split
      · exact step_keeps_inert hf h
      · exact (ih t).trans (step_keeps_inert hf h)
    · rfl
    · rfl

theorem hostRun_keeps_inert {f : Flag} (hf : f.inert = true) (fuel : Nat) (s : State) :
    getFlag (hostRun fuel s).2.p f = getFlag s.p f := by
  unfold hostRun
  split
  · rfl
  · exact runLoop_keeps_inert hf fuel _

/-- `load` writes memory alone (R252). -/
theorem hostLoad_keeps_p (bytes : List Byte) (s : State) : (hostLoad bytes s).2.p = s.p := by
  unfold hostLoad
  split
  · rfl
  · show (s.writeBytes Config.loadOrigin bytes).p = s.p
    rw [State.writeBytes_eq]

theorem inert_of_mem {f : Flag} (h : f ∈ [Flag.I, .D, .B, .B2]) : f.inert = true := by
  simp only [List.mem_cons, List.not_mem_nil, or_false] at h
  obtain rfl | rfl | rfl | rfl := h <;> rfl

/-- Settles O43: `step` commutes with replacing the four flags, and the host's entry points follow from that. -/
theorem unusedFlagsAreInertStorage : Obligations.UnusedFlagsAreInertStorage := by
  refine ⟨fun s q => ?_, fun s t f hf h => step_keeps_inert (inert_of_mem hf) h,
    fun s fuel f hf => hostRun_keeps_inert (inert_of_mem hf) fuel s, fun s bytes => hostLoad_keeps_p bytes s,
    fun _ _ => rfl, fun _ => rfl, fun _ _ => rfl⟩
  refine (step_withInert s q).trans ?_
  cases step s <;> rfl

end Sys2Proof.Machine

/-! Memory accesses, the Resolver, and stores into the code (R41 to R47, R50 to R61, R64, R111, R258). Settles O36 to
O40 and O47. -/
namespace Sys2Proof.Machine

/-! ### Bytes and words -/

/-- A byte reads as what was last stored at its address, and every other byte as before (R42). -/
theorem State.read_write (s : State) (addr b : Addr) (v : Byte) :
    (s.write addr v).read b = if b = addr then v else s.read b := by
  by_cases h : b = addr
  · simp [State.read, Memory.read_write, h]
  · rw [s.read_write_ne v h, if_neg h]

/-- The stored byte is one of the three the decoder reads wherever its address is one of theirs (R42, R102). -/
theorem State.instrAt_write (s : State) (addr b : Addr) (v : Byte) :
    (s.write addr v).instrAt b =
      (let rd : Addr → Byte := fun x => if x = addr then v else s.read x
       decodeBytes (rd b) (rd (b + 1)) (rd (b + 2))) := by
  simp only [State.instrAt, State.read_write]

/-- Settles O39: one address holds the new byte, and a write is an update of memory alone. -/
theorem storedByteReadsBack : Obligations.StoredByteReadsBack :=
  fun s addr b v => ⟨s.read_write addr b v, rfl, s.instrAt_write addr b v⟩

/-- A 16-bit read as a number, little-endian (R43). -/
theorem State.read16_toNat (s : State) (addr : Addr) :
    (s.read16 addr).toNat = 256 * (s.read (addr + 1)).toNat + (s.read addr).toNat := by
  rw [State.read16, word16_toNat, Nat.mul_comm]

/-- The low byte of a 16-bit write is not overwritten by its high byte, at 0xFFFF neither (R44, D9). -/
theorem addr_ne_succ (addr : Addr) : addr ≠ addr + 1 := by bv_omega

/-- What each byte reads as after a 16-bit write (R44). -/
theorem State.read_write16 (s : State) (addr v b : Addr) :
    (s.write16 addr v).read b =
      if b = addr then loByte v else if b = addr + 1 then hiByte v else s.read b := by
  rw [State.write16, State.read_write, State.read_write]
  by_cases hlo : b = addr
  · rw [if_neg (hlo ▸ addr_ne_succ addr), if_pos hlo, if_pos hlo]
  · rw [if_neg hlo, if_neg hlo]

/-- Settles O40: a word's bytes are its quotient and remainder by 256. -/
theorem wordAccessesAreLittleEndian : Obligations.WordAccessesAreLittleEndian := by
  refine ⟨fun s addr => (s.read16_toNat addr).trans (Nat.add_comm _ _), fun s addr v b => ?_⟩
  simp only [State.read_write16, apply_ite BitVec.toNat, loByte_toNat, hiByte_toNat]

/-! ### The Resolver -/

/-- Zero extension keeps the number (R7). -/
@[simp] theorem zext16_toNat (b : Byte) : (zext16 b).toNat = b.toNat :=
  BitVec.toNat_setWidth_of_le (by decide)

/-- A 16-bit address plus an index register, modulo 65536 (R8). -/
theorem add_zext16_toNat (w : Addr) (b : Byte) : (w + zext16 b).toNat = (w.toNat + b.toNat) % 65536 := by
  rw [BitVec.toNat_add, zext16_toNat]

/-- A zero-page byte plus an index register stays in page 0 (R8). -/
theorem zext16_add_toNat (b c : Byte) : (zext16 (b + c)).toNat = (b.toNat + c.toNat) % 256 := by
  rw [zext16_toNat, BitVec.toNat_add]

/-- A zero-page pointer as a number (R58). -/
theorem State.zpPointer_toNat (s : State) (p : Byte) :
    (s.zpPointer p).toNat = 256 * (s.read (zext16 (p + 1))).toNat + (s.read (zext16 p)).toNat := by
  rw [State.zpPointer, word16_toNat, Nat.mul_comm]

/-- Settles O36, mode by mode. -/
theorem resolveGivesEffectiveAddress : Obligations.ResolveGivesEffectiveAddress := by
  intro s
  refine ⟨rfl, ⟨_, rfl, zext16_toNat _⟩, ⟨_, rfl, zext16_add_toNat _ _⟩, ⟨_, rfl, zext16_add_toNat _ _⟩,
    ⟨⟨_, rfl, s.read16_toNat s.pc⟩, ⟨_, rfl, ?_⟩, ⟨_, rfl, ?_⟩⟩,
    fun p => ⟨zext16 p, zext16 (p + 1), zext16_toNat p, zext16_add_toNat p 1, s.zpPointer_toNat p⟩,
    rfl, ⟨_, rfl, add_zext16_toNat _ _⟩⟩
  · rw [add_zext16_toNat, s.read16_toNat, State.reg_X]
  · rw [add_zext16_toNat, s.read16_toNat, State.reg_Y]

/-- The operand the decoder assembles is the one its mode reads at `pc`, where the operand bytes are those at `pc`
(R50, R73). -/
theorem operand_eq_operandAt {op : Byte} {s : State} {i : Instr}
    (h : decodeBytes op (s.read s.pc) (s.read (s.pc + 1)) = some i) :
    i.operand = operandAt i.descriptor.mode s := by
  unfold decodeBytes at h
  split at h
  case h_152 => cases h
  all_goals cases h; rfl

/-- The operand byte of a mode is the byte at its effective address, an immediate's at `pc` (R51, R111). -/
theorem value_operandAt (m : Mode) (s : State) : Operand.value (operandAt m s) s = (resolve m s).map s.read := by
  cases m <;> rfl

/-- Settles O37: the fetch leaves `pc` at the first operand byte and memory as it was. -/
theorem decodedOperandIsResolved : Obligations.DecodedOperandIsResolved := by
  intro s i h
  have hpc : s.pc + 2 = s.pc + 1 + 1 := (BitVec.add_assoc s.pc 1 1).symm
  rw [hpc] at h
  have hoperand : i.operand = operandAt i.descriptor.mode (s.dispatched i) :=
    operand_eq_operandAt (s := s.dispatched i) h
  rw [hoperand]
  exact ⟨rfl, value_operandAt _ _⟩

/-- Settles O38: on the tag None a rule is `raise`; and the table gives every such instruction an operand. -/
theorem noneModeRaisesInvalidAddressing : Obligations.NoneModeRaisesInvalidAddressing := by
  refine ⟨fun _ => rfl, fun s c r f k hc => ?_,
    fun i s hi => Operand.ea_isSome i.operand s (operand_ne_noMode i hi)⟩
  have hraise : raiseError .invalidAddressingMode s = .next (s.enterFaulted .invalidAddressingMode c) :=
    raiseError_of_inFlight _ hc
  exact ⟨hraise, hraise, hraise, hraise, hraise, hraise, hraise, hraise⟩

/-! ### Stores into the code -/

/-- STA, STX and STY store their register at the effective address (R123 to R125). -/
theorem exec_of_store {i : Instr} {r : Reg} {s : State} {ea : Addr}
    (hi : (i.mnemonic, r) ∈ [(.STA, .A), (.STX, .X), (.STY, .Y)]) (hea : Operand.ea i.operand s = some ea) :
    exec i s = .next (s.write ea (s.reg r)) := by
  have hrule : exec i s = storeRule r i.operand s := by
    rw [exec_eq_ruleOf]
    simp only [List.mem_cons, Prod.mk.injEq, List.not_mem_nil, or_false] at hi
    obtain ⟨hi, rfl⟩ | ⟨hi, rfl⟩ | ⟨hi, rfl⟩ := hi <;> simp only [ruleOf, hi]
  exact hrule.trans (withAddress_of_ea _ hea)

/-- INC adds 1 to the byte at the effective address (R140). -/
theorem exec_of_inc {i : Instr} {s : State} {ea : Addr} (hi : i.mnemonic = .INC)
    (hea : Operand.ea i.operand s = some ea) :
    exec i s = .next ((s.write ea (s.read ea + 1)).setZN (s.read ea + 1)) := by
  have hrule : exec i s = incMemRule i.operand s := by simp only [exec_eq_ruleOf, ruleOf, hi]
  exact hrule.trans (withAddress_of_ea _ hea)

/-- The byte a store leaves at its address (R42). -/
theorem read_of_exec_store {i : Instr} {r : Reg} {s t : State} {ea : Addr} (h : exec i s = .next t)
    (hi : (i.mnemonic, r) ∈ [(.STA, .A), (.STX, .X), (.STY, .Y)]) (hea : Operand.ea i.operand s = some ea) :
    t.read ea = s.reg r := by
  obtain rfl := Host.Outcome.next.inj ((exec_of_store hi hea).symm.trans h)
  rw [State.read_write, if_pos rfl]

/-- The byte INC leaves at its address, the old one plus 1 (R42). -/
theorem read_of_exec_inc {i : Instr} {s t : State} {ea : Addr} (h : exec i s = .next t) (hi : i.mnemonic = .INC)
    (hea : Operand.ea i.operand s = some ea) : t.read ea = s.read ea + 1 := by
  obtain rfl := Host.Outcome.next.inj ((exec_of_inc hi hea).symm.trans h)
  show (s.write ea (s.read ea + 1)).read ea = _
  rw [State.read_write, if_pos rfl]

/-- The instructions that write memory are dispatched, are no branches and do not halt (R47). -/
theorem memory_writer_completes {i : Instr}
    (h : i.mnemonic ∈ [.STA, .STX, .STY, .INC] ∨ i.mnemonic ∈ [.ASL, .LSR, .ROL, .ROR]) :
    i.mnemonic.dispatched = true ∧ i.branchOffset = none ∧ i.mnemonic ≠ .BRK := by
  cases i <;> simp [Instr.mnemonic, Instr.descriptor, Instr.branchOffset, Mnemonic.dispatched] at h ⊢

/-- The end of a step keeps memory. -/
@[simp] theorem State.finish_mem (u : State) : u.finish.mem = u.mem := by
  obtain ⟨pc, h⟩ := u.finish_eq
  rw [h]

/-- The memory after a step: the rule's byte at the effective address, every other byte as before (R47). -/
theorem read_after_step {s u : State} {i : Instr} {ea : Addr} (hu : exec i (s.dispatched i) = .next u)
    (hea : Operand.ea i.operand (s.dispatched i) = some ea) (b : Addr) :
    u.finish.read b = if b = ea then u.read ea else s.read b := by
  rw [State.read, State.finish_mem]
  split
  next hb => rw [hb]; rfl
  next hb => exact exec_keeps_read hu hea hb

/-- Settles O47: the step runs the rule on the operand bytes it fetched, advances past them, and leaves memory the
rule's, which the next fetch reads. -/
theorem storeIsSeenByNextFetch : Obligations.StoreIsSeenByNextFetch := by
  intro s i hf hdecode hwrites
  have hoperand : i.operand ≠ .noMode :=
    operand_ne_noMode i (hwrites.imp_left fun h => by simp only [List.mem_cons] at h ⊢; tauto)
  obtain ⟨ea, hea⟩ := Operand.ea_isSome i.operand (s.dispatched i) hoperand
  obtain ⟨u, hu, hstep⟩ := step_runs hf hdecode
  obtain ⟨hdisp, hbranch, hbrk⟩ := memory_writer_completes (hwrites.imp_right And.left)
  obtain ⟨t, ht, hes, hpc, -, -⟩ := nextFetchIsAfterInstruction s i hf hdecode hdisp hbranch hbrk
  obtain rfl : u.finish = t := Host.Outcome.next.inj (hstep.symm.trans ht)
  have hread := read_after_step hu hea
  have hstore {r : Reg} (hi : (i.mnemonic, r) ∈ [(.STA, .A), (.STX, .X), (.STY, .Y)]) :
      u.read ea = (s.dispatched i).reg r := read_of_exec_store hu hi hea
  refine ⟨ea, u, _, hea, hu, hstep, hes, BitVec.eq_of_toNat_eq ?_,
    ⟨hread, by simp only [State.instrAt, hread]⟩, fun hi => ?_, fun hi => ?_, fun hi => ?_, fun hi => ?_⟩
  · rw [hpc, BitVec.toNat_add, BitVec.toNat_ofNat, Nat.add_mod_mod]
  · exact hstore (r := .A) (by simp [hi])
  · exact hstore (r := .X) (by simp [hi])
  · exact hstore (r := .Y) (by simp [hi])
  · rw [read_of_exec_inc hu hi hea]; exact BitVec.toNat_add _ _

end Sys2Proof.Machine

/-! Encoding and decoding (R70 to R81): the decoder inverts the encoder, the opcode bytes against the written-out
table, and the offset an assembler computes. Settles O8 to O11 and O53. -/
namespace Sys2Proof.Machine

/-! ### Decode and encode -/

/-- An encoding is as long as its descriptor says (R70). -/
@[simp] theorem length_encode (i : Instr) : (encode i).length = i.len := by cases i <;> rfl

/-- `decode` reads one instruction off the front: the first three bytes, 0 where there is none, decode to it, its
bytes are there, and the rest is what follows them (R71, R74). -/
theorem decode_eq_ok_iff {bytes rest : List Byte} {i : Instr} :
    decode bytes = .ok (i, rest) ↔
      decodeBytes (bytes.getD 0 0) (bytes.getD 1 0) (bytes.getD 2 0) = some i ∧
        i.len ≤ bytes.length ∧ bytes.drop i.len = rest := by
  cases bytes with
  | nil =>
    have hlen := (instr_len_pos i).1
    simp only [decode, reduceCtorEq, false_iff, List.length_nil]
    omega
  | cons op tl =>
    simp only [decode, List.getD_cons_zero, List.getD_cons_succ, List.length_cons]
    cases decodeBytes op (tl.getD 0 0) (tl.getD 1 0) with
    | none => simp
    | some j =>
      have hdrop : (op :: tl).drop j.len = tl.drop (j.len - 1) := List.drop_cons (instr_len_pos j).1
      by_cases hlen : j.len ≤ tl.length + 1
      · simp only [hlen, if_true, Except.ok.injEq, Prod.mk.injEq, Option.some.injEq]
        constructor
        · rintro ⟨rfl, rfl⟩; exact ⟨rfl, hlen, hdrop⟩
        · rintro ⟨rfl, -, rfl⟩; exact ⟨rfl, hdrop.symm⟩
      · simp only [hlen, if_false, reduceCtorEq, false_iff, Option.some.injEq]
        rintro ⟨rfl, h, -⟩
        exact hlen h

/-- The first three bytes of an encoding, whatever follows it, decode to its instruction. A branch's offset byte is
read as the offset it was made from, and an address's two bytes are put together again (R73). -/
theorem decodeBytes_encode {i : Instr} (hi : i.WellFormed = true) (rest : List Byte) :
    decodeBytes ((encode i ++ rest).getD 0 0) ((encode i ++ rest).getD 1 0) ((encode i ++ rest).getD 2 0) =
      some i := by
  cases i <;> simp only [encode, List.cons_append, List.nil_append, List.getD_cons_zero, List.getD_cons_succ]
  case bcc | bcs | beq | bne | bmi | bpl | bvc | bvs =>
    conv_rhs => rw [← offsetOfByte_byteOfOffset hi]
    rfl
  case ldaAbs w | ldaAbsY w | ldaAbsX w | ldxAbs w | ldxAbsY w | ldyAbs w | ldyAbsX w | staAbs w | staAbsY w |
      staAbsX w | stxAbs w | styAbs w | incAbs w | incAbsX w | andAbs w | andAbsY w | andAbsX w | oraAbs w |
      oraAbsY w | oraAbsX w | eorAbs w | eorAbsY w | eorAbsX w | adcAbs w | adcAbsY w | adcAbsX w | sbcAbs w |
      sbcAbsY w | sbcAbsX w | aslAbs w | aslAbsX w | lsrAbs w | lsrAbsX w | rolAbs w | rolAbsX w | rorAbs w |
      rorAbsX w | bitAbs w | cmpAbs w | cmpAbsY w | cmpAbsX w | cpxAbs w | cpyAbs w | decAbs w | decAbsX w |
      jmpAbs w | jmpInd w | jsrAbs w =>
    conv_rhs => rw [← word16_hiByte_loByte w]
    rfl
  all_goals rfl

/-- Settles O8: the bytes of the encoding decode to the instruction, and its length cuts them off. -/
theorem decodeOfEncodeIsInstruction : Obligations.DecodeOfEncodeIsInstruction := by
  intro i rest hi
  refine decode_eq_ok_iff.mpr ⟨decodeBytes_encode hi rest, by simp, ?_⟩
  rw [← length_encode, List.drop_left]

/-- The front of a byte sequence, up to three bytes, is that of its first three bytes read with a default. -/
theorem take_getD_eq_take {bytes : List Byte} {n : Nat} (hn : n ≤ 3) (hlen : n ≤ bytes.length) :
    [bytes.getD 0 0, bytes.getD 1 0, bytes.getD 2 0].take n = bytes.take n := by
  have hfirst : ([bytes.getD 0 0, bytes.getD 1 0, bytes.getD 2 0].take n).length = n := List.length_take_of_le hn
  refine List.ext_getElem (hfirst.trans (List.length_take_of_le hlen).symm) fun k hk _ => ?_
  rw [hfirst] at hk
  have hget : bytes.getD k 0 = bytes[k] := List.getD_eq_getElem _ _ (by omega)
  obtain rfl | rfl | rfl : k = 0 ∨ k = 1 ∨ k = 2 := by omega
  all_goals simpa using hget

/-- Settles O9: what the decoder reads encodes to the bytes it read, and the rest is what follows them. -/
theorem decodedBytesAreEncoding : Obligations.DecodedBytesAreEncoding := by
  intro bytes i rest h
  obtain ⟨hdecode, hlen, rfl⟩ := decode_eq_ok_iff.mp h
  obtain ⟨-, hwf, hencode⟩ := decodeBytes_some hdecode
  refine ⟨hwf, ?_⟩
  rw [hencode, take_getD_eq_take (instr_len_pos i).2 hlen, List.take_append_drop]

/-- Settles O10, by running the decoder on each word. -/
theorem writtenOutWordsDecode : Obligations.WrittenOutWordsDecode :=
  ⟨rfl, rfl, rfl, rfl, rfl, rfl, rfl, rfl, rfl, rfl, rfl, rfl, rfl, rfl, rfl, rfl, rfl⟩

/-! ### The opcode table -/

/-- Every row's byte decodes, whatever follows it, to an instruction of that row (R81). -/
theorem decodeBytes_of_row (b1 b2 : Byte) :
    ∀ row ∈ opcodeTable, (decodeBytes row.opcode b1 b2).map rowOf = some row := by
  simp only [opcodeTable, List.forall_mem_append, List.forall_mem_cons, List.not_mem_nil, false_imp_iff,
    implies_true, and_true]
  and_intros <;> rfl

/-- An absent byte decodes to nothing (R77). -/
theorem decodeBytes_of_absent (b1 b2 : Byte) : ∀ op ∈ absentBytes, decodeBytes op b1 b2 = none := by
  simp only [absentBytes, List.forall_mem_append, List.forall_mem_cons, List.not_mem_nil, false_imp_iff,
    implies_true, and_true]
  and_intros <;> rfl

/-- The absent bytes and the rows' bytes are all different: each list rises, and no row's byte decodes to nothing. -/
theorem opcodes_nodup : (absentBytes ++ opcodeTable.map TableRow.opcode).Nodup := by
  have habsent : absentBytes.IsChain (· < ·) := by simp [absentBytes]
  have hrows : (opcodeTable.map TableRow.opcode).IsChain (· < ·) := by simp [opcodeTable]
  refine habsent.pairwise.nodup.append hrows.pairwise.nodup fun op hop hmem => ?_
  obtain ⟨row, hrow, rfl⟩ := List.mem_map.mp hmem
  have hdecode := decodeBytes_of_row 0 0 row hrow
  rw [decodeBytes_of_absent 0 0 _ hop] at hdecode
  cases hdecode

/-- There are 105 absent bytes and 151 rows. -/
theorem opcodes_length : (absentBytes ++ opcodeTable.map TableRow.opcode).length = 256 := by
  simp only [absentBytes, opcodeTable, List.length_append, List.length_map, List.length_cons, List.length_nil]

/-- Every byte is absent or has a row, by counting: 256 different bytes are all of them. -/
theorem absent_or_row (op : Byte) : op ∈ absentBytes ∨ ∃ row ∈ opcodeTable, row.opcode = op := by
  have hall : (absentBytes ++ opcodeTable.map TableRow.opcode).toFinset = Finset.univ := by
    apply Finset.eq_univ_of_card
    rw [List.toFinset_card_of_nodup opcodes_nodup, opcodes_length, ← FinEnum.card_eq_fintypeCard]
    rfl
  have hop : op ∈ (absentBytes ++ opcodeTable.map TableRow.opcode).toFinset := hall ▸ Finset.mem_univ op
  simpa using hop

/-- A byte decodes to nothing exactly when it is absent (R77). -/
theorem decodeBytes_eq_none_iff (op b1 b2 : Byte) : decodeBytes op b1 b2 = none ↔ op ∈ absentBytes := by
  refine ⟨fun hnone => (absent_or_row op).resolve_right ?_, decodeBytes_of_absent b1 b2 op⟩
  rintro ⟨row, hrow, rfl⟩
  have hdecode := decodeBytes_of_row b1 b2 row hrow
  rw [hnone] at hdecode
  cases hdecode

/-- The descriptor of what a byte decodes to is the byte's row (R81). -/
theorem decodeBytes_map_rowOf (op b1 b2 : Byte) :
    (decodeBytes op b1 b2).map rowOf = opcodeTable.find? (fun row => row.opcode == op) := by
  cases hfind : opcodeTable.find? (fun row => row.opcode == op) with
  | some row =>
    obtain rfl : row.opcode = op := by simpa using List.find?_some hfind
    exact decodeBytes_of_row b1 b2 row (List.mem_of_find?_eq_some hfind)
  | none =>
    have hno : ∀ row ∈ opcodeTable, row.opcode ≠ op := by simpa using List.find?_eq_none.mp hfind
    have habsent : op ∈ absentBytes :=
      (absent_or_row op).resolve_right fun ⟨row, hrow, hop⟩ => hno row hrow hop
    rw [decodeBytes_of_absent b1 b2 op habsent, Option.map_none]

/-- The undispatched bytes are those of the rows whose mnemonic is not dispatched (R76). -/
theorem undispatchedBytes_eq :
    undispatchedBytes = (opcodeTable.filter fun row => !row.mnemonic.dispatched).map TableRow.opcode := rfl

/-- What a byte decodes to is dispatched unless the byte is one of the 38 (R76, R103). -/
theorem dispatched_eq_false_iff {op b1 b2 : Byte} {i : Instr} (h : decodeBytes op b1 b2 = some i) :
    i.mnemonic.dispatched = false ↔ op ∈ undispatchedBytes := by
  have hfind : opcodeTable.find? (fun row => row.opcode == op) = some (rowOf i) := by
    rw [← decodeBytes_map_rowOf op b1 b2, h, Option.map_some]
  rw [undispatchedBytes_eq]
  constructor
  · intro hdisp
    exact List.mem_map.mpr ⟨rowOf i, List.mem_filter.mpr
      ⟨List.mem_of_find?_eq_some hfind, by simpa [rowOf] using hdisp⟩, (decodeBytes_some h).1⟩
  · intro hmem
    obtain ⟨row, hrow, rfl⟩ := List.mem_map.mp hmem
    obtain ⟨hrow, hdisp⟩ := List.mem_filter.mp hrow
    have hdecode := decodeBytes_of_row b1 b2 row hrow
    rw [h, Option.map_some, Option.some.injEq] at hdecode
    subst hdecode
    simpa [rowOf] using hdisp

/-- Settles O11: the table and the 105 absent bytes are all 256 bytes, and the decoder answers each by its row. -/
theorem opcodeBytesSplitThreeWays : Obligations.OpcodeBytesSplitThreeWays := fun op b1 b2 =>
  ⟨decodeBytes_eq_none_iff op b1 b2, fun _ h => ⟨(decodeBytes_some h).1, dispatched_eq_false_iff h⟩,
    decodeBytes_map_rowOf op b1 b2⟩

/-! ### Branches and the assembler's offset -/

/-- A signed byte's range as an inequality (R73). -/
theorem offsetInRange_iff {off : Int} : offsetInRange off = true ↔ -128 ≤ off ∧ off ≤ 127 := decide_eq_true_iff

/-- An offset in a signed byte's range survives its sign extension to 16 bits (R195). -/
theorem toInt_ofInt_of_offsetInRange {off : Int} (h : offsetInRange off = true) :
    (BitVec.ofInt 16 off).toInt = off := by
  obtain ⟨hlo, hhi⟩ := offsetInRange_iff.mp h
  exact BitVec.toInt_ofInt_eq_self (by decide) (by omega) (by omega)

/-- Of the offsets in range only -1 is the 16-bit value -1. -/
theorem ofInt_eq_neg_one_iff {off : Int} (h : offsetInRange off = true) : BitVec.ofInt 16 off = -1 ↔ off = -1 := by
  rw [← BitVec.toInt_inj, toInt_ofInt_of_offsetInRange h]
  rfl

/-- The assembler's offset is the one in range whose sum with the address after the branch is the target (R80). -/
theorem assembleOffset_eq_some_iff {pcOp target : Addr} {off : Int} :
    assembleOffset pcOp target = some off ↔
      offsetInRange off = true ∧ pcOp + 2 + BitVec.ofInt 16 off = target := by
  simp only [assembleOffset, Option.ite_none_right_eq_some, Option.some.injEq]
  constructor
  · rintro ⟨hrange, rfl⟩
    exact ⟨hrange, by rw [BitVec.ofInt_toInt, BitVec.add_comm, BitVec.sub_add_cancel]⟩
  · rintro ⟨hrange, rfl⟩
    rw [BitVec.add_comm, BitVec.add_sub_cancel, toInt_ofInt_of_offsetInRange hrange]
    exact ⟨hrange, rfl⟩

/-- The branch opcodes, each with the flag it tests and the value it branches on (R196 to R203). -/
def branchOpcodes : List (Byte × Flag × Bool) :=
  [(0x90, .C, false), (0xB0, .C, true), (0xF0, .Z, true), (0xD0, .Z, false),
   (0x30, .N, true), (0x10, .N, false), (0x50, .V, false), (0x70, .V, true)]

/-- A branch opcode decodes to a two-byte instruction that runs `Branch` on its flag and its offset (R195, R196 to
R203). -/
theorem decodeBytes_of_branch {op : Byte} {f : Flag} {v : Bool} (h : (op, f, v) ∈ branchOpcodes) (b1 b2 : Byte) :
    ∃ i, decodeBytes op b1 b2 = some i ∧ i.len = 2 ∧
      ∀ s, exec i s = branchRule (getFlag s.p f == v) (offsetOfByte b1) s := by
  simp only [branchOpcodes, List.mem_cons, Prod.mk.injEq, List.not_mem_nil, or_false] at h
  obtain ⟨rfl, rfl, rfl⟩ | ⟨rfl, rfl, rfl⟩ | ⟨rfl, rfl, rfl⟩ | ⟨rfl, rfl, rfl⟩ | ⟨rfl, rfl, rfl⟩ |
    ⟨rfl, rfl, rfl⟩ | ⟨rfl, rfl, rfl⟩ | ⟨rfl, rfl, rfl⟩ := h
  all_goals exact ⟨_, rfl, rfl, fun s => by simp only [beq_true, beq_false]; rfl⟩

/-- Where the advance takes a taken branch: to the address after it plus the offset. The offset -1 lands on the
branch's own offset byte, which the test by value takes for an unchanged `pc` (R104, D12). -/
theorem advance_taken_branch (pc : Addr) {off : Int} (h : offsetInRange off = true) :
    (if pc + 1 + 1 + BitVec.ofInt 16 off = pc + 1 then pc + 1 + 1 + BitVec.ofInt 16 off + 1
      else pc + 1 + 1 + BitVec.ofInt 16 off) = if off = -1 then pc + 2 else pc + 2 + BitVec.ofInt 16 off := by
  have hself : pc + 1 + 1 + BitVec.ofInt 16 off = pc + 1 ↔ off = -1 := by
    rw [← ofInt_eq_neg_one_iff h]
    constructor <;> intro hoff <;> bv_omega
  have hnext : pc + 1 + 1 = pc + 2 := BitVec.add_assoc pc 1 1
  simp only [hself]
  split
  next hneg => rw [hself.mpr hneg, hnext]
  next => rw [hnext]

/-- A step from Fetching on a branch opcode: `pc` and what is in flight change alone; with the flag as asked and an
offset other than -1, `pc` goes to the address after the branch plus the offset, else to that address (R195, R104,
D12). -/
theorem step_of_branch {s : State} {op : Byte} {f : Flag} {v : Bool} (h : (op, f, v) ∈ branchOpcodes)
    (hf : s.es = .fetching) (hop : s.read s.pc = op) :
    step s = .next
      { s with
        pc :=
          if getFlag s.p f = v then
            if offsetOfByte (s.read (s.pc + 1)) = -1 then s.pc + 2
            else s.pc + 2 + BitVec.ofInt 16 (offsetOfByte (s.read (s.pc + 1)))
          else s.pc + 2
        inFlight := none } := by
  obtain ⟨i, hdecode, hlen, hexec⟩ := decodeBytes_of_branch h (s.read (s.pc + 1)) (s.read (s.pc + 2))
  have hi : s.instrAt s.pc = some i := by rw [State.instrAt, hop, hdecode]
  have hrun := hexec (s.dispatched i)
  rw [step_of_instr hf hi]
  by_cases hflag : getFlag s.p f = v
  · have htaken : (getFlag (s.dispatched i).p f == v) = true := beq_iff_eq.mpr hflag
    rw [branchRule, htaken, if_pos rfl] at hrun
    rw [hrun, finishStep, finish_after_rule hrun rfl, hlen, if_pos hflag, ← hf]
    exact congrArg (fun pc => Host.Outcome.next { s with pc := pc, inFlight := none })
      (advance_taken_branch s.pc (offsetInRange_offsetOfByte _))
  · have hnot : (getFlag (s.dispatched i).p f == v) = false := beq_eq_false_iff_ne.mpr hflag
    have hpc : (s.dispatched i).pc = s.pc + 1 := rfl
    rw [branchRule, hnot, if_neg Bool.false_ne_true] at hrun
    rw [hrun, finishStep, finish_after_rule hrun rfl, hlen, if_neg hflag, if_pos hpc, ← hf]
    exact congrArg (fun pc => Host.Outcome.next { s with pc := pc, inFlight := none })
      (BitVec.add_assoc s.pc 1 1)

/-- Settles O53: the branch takes the offset read back from its byte, and that offset's sum is the target. -/
theorem assembledOffsetSumsToTarget : Obligations.AssembledOffsetSumsToTarget := by
  refine ⟨fun _ _ _ => assembleOffset_eq_some_iff, fun s op f v target off h hf hop hflag hoff hbyte => ?_⟩
  obtain ⟨hrange, rfl⟩ := assembleOffset_eq_some_iff.mp hoff
  refine ⟨_, step_of_branch h hf hop, hf, ?_⟩
  rw [if_pos hflag, hbyte, offsetOfByte_byteOfOffset hrange]

end Sys2Proof.Machine

/-! Dispatch (R101 to R113): the step of each kind of opcode byte, the state a step ends in, the adder's overflow and
SetZN, and what the host's step() and run() return. Settles O7, O12 to O14, O16 to O18, O27, O34, O35, O50 and O54. -/
namespace Sys2Proof.Machine

/-! ### SetZN and the adder -/

/-- Settles O35, flag by flag; what SetZN leaves unchanged is read off its definition. -/
theorem setZnWritesZeroAndNegativeOnly : Obligations.SetZnWritesZeroAndNegativeOnly := fun s v =>
  ⟨{ zero := getFlag_znFlags s.p v .Z
     negative := getFlag_znFlags s.p v .N
     others := fun _ hz hn => (getFlag_setFlag_other _ _ hn).trans (getFlag_setFlag_other _ _ hz) }, s.setZN_eq v⟩

/-- The adder's result as a signed number: the signed sum, wrapped to 8 bits (R110). -/
theorem addResult_toInt (a m : Byte) (c : Bool) :
    (addResult a m c).toInt = (a.toInt + m.toInt + c.toNat).bmod 256 := by
  simp only [BitVec.toInt_eq_toNat_bmod, addResult_toNat, Int.bmod]
  omega

/-- The adder's overflow: the operands have one sign and the result the other (R110). -/
theorem addOverflow_eq_true_iff (a m : Byte) (c : Bool) :
    addOverflow a m c = true ↔
      (a.toInt < 0 ↔ m.toInt < 0) ∧ ¬(a.toInt < 0 ↔ (addResult a m c).toInt < 0) := by
  have hsign (v : Byte) : v.getLsbD 7 = decide (v.toInt < 0) := v.msb_eq_toInt
  rw [addOverflow, BitVec.getLsbD_and, BitVec.getLsbD_xor, BitVec.getLsbD_xor]
  simp only [hsign]
  grind

/-- Settles O27: the wrapped sum of two signed bytes and a carry has the wrong sign exactly when it left the range. -/
theorem overflowIsSignedOverflow : Obligations.OverflowIsSignedOverflow := by
  intro a m c
  have ha : -128 ≤ a.toInt ∧ a.toInt < 128 := ⟨a.le_toInt, a.toInt_lt⟩
  have hm : -128 ≤ m.toInt ∧ m.toInt < 128 := ⟨m.le_toInt, m.toInt_lt⟩
  have hc := c.toNat_le
  rw [addOverflow_eq_true_iff, addResult_toInt]
  simp only [Int.bmod]
  omega

/-! ### The instruction at an address -/

/-- There is no instruction exactly where the opcode byte is absent (R77, R102). -/
theorem State.instrAt_eq_none_iff {s : State} {addr : Addr} :
    s.instrAt addr = none ↔ s.read addr ∈ absentBytes := decodeBytes_eq_none_iff _ _ _

/-- The opcode bytes that decode to BRK are 0x00 alone (R204, R211). -/
theorem mnemonic_eq_brk_iff {op b1 b2 : Byte} {i : Instr} (h : decodeBytes op b1 b2 = some i) :
    i.mnemonic = .BRK ↔ op = 0x00 := by
  rw [← (decodeBytes_some h).1]
  cases i <;> simp [Instr.mnemonic, Instr.descriptor]

/-- One of the 38 bytes decodes to an instruction that is not dispatched (R76, R103). -/
theorem decodeBytes_of_undispatched {op : Byte} (h : op ∈ undispatchedBytes) (b1 b2 : Byte) :
    ∃ i, decodeBytes op b1 b2 = some i ∧ i.mnemonic.dispatched = false := by
  obtain ⟨row, hrow, rfl⟩ := List.mem_map.mp (undispatchedBytes_eq ▸ h)
  obtain ⟨i, hi, -⟩ := Option.map_eq_some_iff.mp (decodeBytes_of_row b1 b2 row (List.mem_filter.mp hrow).1)
  exact ⟨i, hi, (dispatched_eq_false_iff hi).mpr h⟩

/-! ### The state a step ends in -/

/-- The end of a step leaves Dispatching for Fetching and keeps any other control state (R104, R105, R225). -/
theorem State.finish_es (u : State) : u.finish.es = if u.es = .dispatching then .fetching else u.es := by
  obtain ⟨pc, h⟩ := u.finish_eq
  rw [h]

/-- The end of a step keeps the record. -/
@[simp] theorem State.finish_fault (u : State) : u.finish.fault = u.fault := by
  obtain ⟨pc, h⟩ := u.finish_eq
  rw [h]

/-- The end of a step after an instruction rule, whatever control state the rule left (R104, R105, R225). -/
theorem finish_of_exec {s u : State} {i : Instr} (hu : exec i (s.dispatched i) = .next u) :
    u.finish =
      { u with
        pc := if u.es = .dispatching ∧ u.pc = s.pc + 1 then s.pc + BitVec.ofNat 16 i.len else u.pc
        es := if u.es = .dispatching then .fetching else u.es
        inFlight := none } := by
  have hlen : s.pc + 1 + BitVec.ofNat 16 (i.len - 1) = s.pc + BitVec.ofNat 16 i.len :=
    BitVec.eq_of_toNat_eq ((advance_toNat s.pc i).trans (by simp))
  by_cases hd : u.es = .dispatching
  · rw [finish_after_rule hu hd]
    by_cases hpc : u.pc = s.pc + 1
    · simp only [hd, hpc, hlen, true_and, if_true]
    · simp only [hd, hpc, and_false, if_true, if_false]
  · simp [u.finish_of_stopped hd, hd]

/-- The control state after a step that ran an instruction, by its mnemonic (R104, R105, R222). -/
theorem finish_engineState {s u : State} {i : Instr} (hu : exec i (s.dispatched i) = .next u) :
    (i.mnemonic = .BRK ∧ u.finish.es = .halted) ∨
    (i.mnemonic.dispatched = false ∧ u.finish.es = .faulted ∧ u.finish.fault.isSome = true) ∨
    (i.mnemonic ≠ .BRK ∧ u.finish.es = .fetching) := by
  obtain ⟨hi, hes, -⟩ | ⟨hi, hes, hfault⟩ | ⟨hi, -, hes, -⟩ := exec_engineState hu
  · exact .inl ⟨hi, by simp [u.finish_es, hes]⟩
  · exact .inr (.inl ⟨hi, by simp [u.finish_es, hes], by simpa using hfault⟩)
  · exact .inr (.inr ⟨hi, by simp [u.finish_es, hes, State.dispatched]⟩)

/-- A step that ends in Faulted from Fetching leaves a record (R225). -/
theorem step_records {s t : State} (hf : s.es = .fetching) (h : step s = .next t) (ht : t.es = .faulted) :
    ∃ record, t.fault = some record := by
  obtain ⟨hn, -⟩ | ⟨-, -, rfl⟩ | ⟨-, i, u, -, hu, rfl⟩ := step_cases h
  · exact absurd hf hn
  · exact ⟨_, rfl⟩
  · obtain ⟨-, hes⟩ | ⟨-, -, hfault⟩ | ⟨-, hes⟩ := finish_engineState hu
    · simp [hes] at ht
    · exact Option.isSome_iff_exists.mp hfault
    · simp [hes] at ht

/-- A step answers a next state in every control state but Faulted (R106, R113). -/
theorem step_completes {s : State} (h : s.es ≠ .faulted) : ∃ t, step s = .next t := by
  cases hs : s.es
  case fetching =>
    cases hi : s.instrAt s.pc with
    | none => exact ⟨_, step_of_absent hs hi⟩
    | some i =>
      obtain ⟨u, -, hstep⟩ := step_runs hs hi
      exact ⟨_, hstep⟩
  case halted | dispatching => exact ⟨s, by simp only [step, hs]⟩
  case faulted => exact absurd hs h

/-- Settles O17. -/
theorem stepAnswersNextUnlessFaulted : Obligations.StepAnswersNextUnlessFaulted := fun _ => step_completes

/-- Settles O18: BRK alone halts, and 0x00 alone decodes to it. -/
theorem onlyZeroOpcodeHalts : Obligations.OnlyZeroOpcodeHalts := by
  intro s t hf h
  obtain ⟨hn, -⟩ | ⟨-, hi, rfl⟩ | ⟨-, i, u, hi, hu, rfl⟩ := step_cases h
  · exact absurd hf hn
  · have habsent := State.instrAt_eq_none_iff.mp hi
    have hzero : s.read s.pc ≠ 0x00 := fun hz => by simp [hz, absentBytes] at habsent
    exact iff_of_false nofun hzero
  · rw [← mnemonic_eq_brk_iff hi]
    obtain ⟨hbrk, hes⟩ | ⟨hdisp, hes, -⟩ | ⟨hbrk, hes⟩ := finish_engineState hu
    · simp [hbrk, hes]
    · have hbrk : i.mnemonic ≠ .BRK := fun hb => by simp [hb, Mnemonic.dispatched] at hdisp
      simp [hbrk, hes]
    · simp [hbrk, hes]

/-! ### The step of each kind of byte -/

/-- Settles O7: the rule's state, finished. -/
theorem stepRunsDecodedInstruction : Obligations.StepRunsDecodedInstruction := by
  intro s i hf hdecode
  obtain ⟨u, hu, hstep⟩ := step_runs hf hdecode
  exact ⟨u, hu, by rw [hstep, finish_of_exec hu]⟩

/-- Settles O12: an absent byte is one with no instruction. -/
theorem absentOpcodeFaultsPrecisely : Obligations.AbsentOpcodeFaultsPrecisely := fun _ hf habsent =>
  step_of_absent hf (State.instrAt_eq_none_iff.mpr habsent)

/-- The rule of an undispatched mnemonic is the error (R103, R222). -/
theorem ruleOf_of_undispatched {i : Instr} (h : i.mnemonic.dispatched = false) (s : State) :
    ruleOf i s = unimplementedRule s := by
  unfold ruleOf
  generalize i.mnemonic = mn at h
  cases mn
  case CMP | CPX | CPY | DEC | DEX | DEY | JMP | JSR | RTS | RTI | PHA | PHP | PLA | PLP | CLC | CLD | CLI | CLV |
      SEC | SED | SEI | TSX | TXS => rfl
  all_goals cases h

/-- An undispatched instruction, with one in flight, raises UnimplementedOpcode (R103, R222, R225). -/
theorem exec_of_undispatched {i : Instr} {s : State} {c : InFlight} (h : i.mnemonic.dispatched = false)
    (hc : s.inFlight = some c) : exec i s = .next (s.enterFaulted .unimplementedOpcode c) := by
  rw [exec_eq_ruleOf, ruleOf_of_undispatched h]
  exact raiseError_of_inFlight _ hc

/-- Settles O13. -/
theorem undispatchedInstructionRaises : Obligations.UndispatchedInstructionRaises := fun _ _ _ h hc =>
  exec_of_undispatched h hc

/-- Settles O14: the byte decodes to an undispatched instruction, and its error gets no advance. -/
theorem undispatchedOpcodeFaultsPrecisely : Obligations.UndispatchedOpcodeFaultsPrecisely := by
  intro s hf hop
  obtain ⟨i, hi, hdisp⟩ := decodeBytes_of_undispatched hop (s.read (s.pc + 1)) (s.read (s.pc + 2))
  rw [step_of_instr hf hi, exec_of_undispatched hdisp (s.dispatched_inFlight i), finishStep,
    State.finish_of_stopped _ (by simp)]
  rfl

/-- Settles O34: 0x00 decodes to BRK, and a halted engine gets no advance. -/
theorem brkHaltsAfterItsByte : Obligations.BrkHaltsAfterItsByte := by
  refine ⟨fun s => rfl, fun s hf hop => ?_⟩
  have hi : s.instrAt s.pc = some .brk := by rw [State.instrAt, hop]; rfl
  have hexec : exec .brk (s.dispatched .brk) = .next (s.dispatched .brk).enterHalted := rfl
  rw [step_of_instr hf hi, hexec, finishStep, State.finish_of_stopped _ (by simp)]
  rfl

/-! ### The host's step() and run() -/

/-- What step() returns where the engine takes a step (R113). -/
theorem hostStep_of_next {s t : State} (h : step s = .next t) : hostStep s = (returnOf t, t) := by
  simp only [hostStep, h]

theorem returnOf_of_faulted {t : State} (h : t.es = .faulted) : returnOf t = .error t.fault := if_pos h

theorem returnOf_of_not_faulted {t : State} (h : t.es ≠ .faulted) : returnOf t = .ok := if_neg h

theorem hostRun_of_faulted {s : State} (h : s.es = .faulted) (fuel : Nat) : hostRun fuel s = (.error s.fault, s) :=
  if_pos h

theorem hostRun_of_not_faulted {s : State} (h : s.es ≠ .faulted) (fuel : Nat) :
    hostRun fuel s = runLoop fuel { s with es := .fetching } := if_neg h

/-- From Fetching, `run` is its loop (R112). -/
theorem hostRun_of_fetching {s : State} (h : s.es = .fetching) (fuel : Nat) : hostRun fuel s = runLoop fuel s := by
  rw [hostRun_of_not_faulted (by simp [h]), ← h]

/-- Settles O16. -/
theorem stoppedEngineRunsNothing : Obligations.StoppedEngineRunsNothing := by
  refine fun s => ⟨fun h => ⟨step_of_halted h, ?_⟩, fun h => ⟨step_of_faulted h, ?_, hostRun_of_faulted h⟩⟩
  · rw [hostStep_of_next (step_of_halted h), returnOf_of_not_faulted (by simp [h])]
  · simp only [hostStep, step_of_faulted h]

/-- Settles O54, by the control state the step ends in. -/
theorem hostStepReturnsByEngineState : Obligations.HostStepReturnsByEngineState := by
  intro s hf
  obtain ⟨t, ht⟩ := step_completes (s := s) (by simp [hf])
  refine ⟨t, ht, ?_⟩
  rw [hostStep_of_next ht]
  obtain hes | hes | hes := step_engineState hf ht
  · exact .inl ⟨.inl hes, by rw [returnOf_of_not_faulted (by simp [hes])]⟩
  · exact .inl ⟨.inr hes, by rw [returnOf_of_not_faulted (by simp [hes])]⟩
  · obtain ⟨record, hrecord⟩ := step_records hf ht hes
    exact .inr ⟨hes, record, hrecord, by rw [returnOf_of_faulted hes, hrecord]⟩

/-- One turn of `run`'s loop: it returns where the step ends Halted or Faulted (R112). -/
theorem runLoop_succ {s t : State} (h : step s = .next t) (fuel : Nat) :
    runLoop (fuel + 1) s =
      if t.es = .halted then (.ok, t) else if t.es = .faulted then (.error t.fault, t) else runLoop fuel t := by
  simp only [runLoop, h]
  by_cases hh : t.es = .halted
  · simp [hh, returnOf]
  · by_cases he : t.es = .faulted <;> simp [he, hh, returnOf]

/-- The three ends of `run`: Ok in Halted, the record in Faulted, and not ended in Fetching (R112, R226). -/
def RunEnd (res : HostReturn × State) : Prop :=
  (res.1 = .ok ∧ res.2.es = .halted) ∨
  (res.1 = .error res.2.fault ∧ res.2.es = .faulted) ∨
  (res.1 = .notEnded ∧ res.2.es = .fetching)

/-- The loop of `run` from Fetching has one of the three ends, by induction on the bound of its steps. -/
theorem runLoop_runEnd {s : State} (hf : s.es = .fetching) (fuel : Nat) : RunEnd (runLoop fuel s) := by
  induction fuel generalizing s with
  | zero => exact .inr (.inr ⟨rfl, hf⟩)
  | succ fuel ih =>
    obtain ⟨t, ht⟩ := step_completes (s := s) (by simp [hf])
    rw [runLoop_succ ht]
    obtain hes | hes | hes := step_engineState hf ht
    · simpa [hes] using ih hes
    · exact .inl (by simp [hes])
    · exact .inr (.inl (by simp [hes]))

theorem hostRun_runEnd (fuel : Nat) (s : State) : RunEnd (hostRun fuel s) := by
  by_cases he : s.es = .faulted
  · rw [hostRun_of_faulted he]
    exact .inr (.inl ⟨rfl, he⟩)
  · rw [hostRun_of_not_faulted he]
    exact runLoop_runEnd rfl fuel

/-- A loop of `run` that has returned returns the same with more steps allowed, by induction on the bound. -/
theorem runLoop_stable {fuel : Nat} {s : State} (h : (runLoop fuel s).1 ≠ .notEnded) (more : Nat) :
    runLoop (fuel + more) s = runLoop fuel s := by
  induction fuel generalizing s with
  | zero => exact absurd rfl h
  | succ fuel ih =>
    rw [Nat.succ_add]
    unfold runLoop at h ⊢
    split
    next t ht =>
      simp only [ht] at h
      split
      next => rfl
      next hgo => rw [if_neg hgo] at h; exact ih h
    · rfl
    · rfl

theorem hostRun_stable {fuel : Nat} {s : State} (h : (hostRun fuel s).1 ≠ .notEnded) (more : Nat) :
    hostRun (fuel + more) s = hostRun fuel s := by
  by_cases he : s.es = .faulted
  · rw [hostRun_of_faulted he, hostRun_of_faulted he]
  · simp only [hostRun_of_not_faulted he] at h ⊢
    exact runLoop_stable h more

/-- One step more of `run`, from any state but Faulted (R112). -/
theorem hostRun_succ {s t : State} (he : s.es ≠ .faulted) (h : step { s with es := .fetching } = .next t)
    (fuel : Nat) :
    hostRun (fuel + 1) s =
      if t.es = .halted then (.ok, t) else if t.es = .faulted then (.error t.fault, t) else hostRun fuel t := by
  rw [hostRun_of_not_faulted he, runLoop_succ h]
  obtain hes | hes | hes := step_engineState rfl h
  · simp [hes, hostRun_of_fetching hes]
  · simp [hes]
  · simp [hes]

/-- Settles O50: the ends and their stability by induction on the bound, the unfolding from one turn of the loop. -/
theorem runReturnsOnlyWhenStopped : Obligations.RunReturnsOnlyWhenStopped := by
  refine fun fuel s _ => ⟨hostRun_runEnd fuel s, hostRun_stable, fun hh => ?_, fun he => ⟨?_, ?_⟩⟩
  · exact (hostRun_of_not_faulted (by simp [hh]) fuel).trans (hostRun_of_fetching rfl fuel).symm
  · exact hostRun_of_not_faulted he 0
  · obtain ⟨t, ht⟩ := step_completes (s := { s with es := .fetching }) (by simp)
    exact ⟨t, ht, hostRun_succ he ht fuel⟩

end Sys2Proof.Machine

/-! Loads, stores and register transfers (R120 to R129): what each leaves in its register or in memory, and in Z and
N. Settles O19 to O21. -/
namespace Sys2Proof.Machine

/-! ### Z and N -/

/-- SetZN's status byte has Z and N from the value and the six other flags as before (R108). -/
theorem znUpdate_znFlags (s : State) (v : Byte) : ZnUpdate v s.p (znFlags s.p v) :=
  (setZnWritesZeroAndNegativeOnly s v).1

/-! ### Loads -/

/-- LDA, LDX and LDY put the operand byte into their register and set Z and N from it (R120 to R122). -/
theorem exec_of_load {i : Instr} {r : Reg} {s : State} {m : Byte}
    (hi : (i.mnemonic, r) ∈ [(.LDA, .A), (.LDX, .X), (.LDY, .Y)]) (hm : Operand.value i.operand s = some m) :
    exec i s = .next ((s.setReg r m).setZN m) := by
  have hrule : exec i s = loadRule r i.operand s := by
    rw [exec_eq_ruleOf]
    simp only [List.mem_cons, Prod.mk.injEq, List.not_mem_nil, or_false] at hi
    obtain ⟨hi, rfl⟩ | ⟨hi, rfl⟩ | ⟨hi, rfl⟩ := hi <;> simp only [ruleOf, hi]
  exact hrule.trans (withValue_of_value _ hm)

/-- Settles O19: every form has an operand byte, and the load rule writes the register and P alone. -/
theorem loadsSetRegisterAndZn : Obligations.LoadsSetRegisterAndZn := by
  refine ⟨fun b1 b2 => by and_intros <;> rfl, fun i s hi => ?_⟩
  have hoperand : i.operand ≠ .noMode :=
    operand_ne_noMode i (.inl (by simp only [List.mem_cons] at hi ⊢; tauto))
  obtain ⟨m, hm⟩ := Operand.value_isSome i.operand s hoperand
  refine ⟨m, znFlags s.p m, hm, znUpdate_znFlags s m, fun h => ?_, fun h => ?_, fun h => ?_⟩
  · exact exec_of_load (r := .A) (by simp [h]) hm
  · exact exec_of_load (r := .X) (by simp [h]) hm
  · exact exec_of_load (r := .Y) (by simp [h]) hm

/-! ### Stores -/

/-- A write puts the byte at its address and keeps every other byte (R42). -/
theorem State.storedAt_write (s : State) (ea : Addr) (v : Byte) : StoredAt ea v s.mem (s.write ea v).mem :=
  fun b => s.read_write ea b v

/-- A store leaves its register's byte at the effective address and keeps every other byte (R47, R123 to R125). -/
theorem storedAt_of_exec_store {i : Instr} {r : Reg} {s t : State} {ea : Addr} (h : exec i s = .next t)
    (hi : (i.mnemonic, r) ∈ [(.STA, .A), (.STX, .X), (.STY, .Y)]) (hea : Operand.ea i.operand s = some ea) :
    StoredAt ea (s.reg r) s.mem t.mem := by
  obtain rfl := Host.Outcome.next.inj ((exec_of_store hi hea).symm.trans h)
  exact s.storedAt_write ea (s.reg r)

/-- Settles O20: every form has an effective address, and the store rule writes one byte there and nothing else. -/
theorem storesWriteOneByte : Obligations.StoresWriteOneByte := by
  refine ⟨fun b1 b2 => by and_intros <;> rfl, fun i s hi => ?_⟩
  have hoperand : i.operand ≠ .noMode :=
    operand_ne_noMode i (.inl (by simp only [List.mem_cons] at hi ⊢; tauto))
  obtain ⟨ea, hea⟩ := Operand.ea_isSome i.operand s hoperand
  obtain ⟨r, hr⟩ : ∃ r, (i.mnemonic, r) ∈ [(.STA, .A), (.STX, .X), (.STY, Reg.Y)] := by
    simpa [exists_or] using hi
  have hexec := exec_of_store hr hea
  refine ⟨ea, _, hea, hexec, fun h => ?_, fun h => ?_, fun h => ?_⟩
  · exact storedAt_of_exec_store (r := .A) hexec (by simp [h]) hea
  · exact storedAt_of_exec_store (r := .X) hexec (by simp [h]) hea
  · exact storedAt_of_exec_store (r := .Y) hexec (by simp [h]) hea

/-! ### Transfers -/

/-- Settles O21: each transfer is the register's write followed by SetZN of the source. -/
theorem transfersCopyRegister : Obligations.TransfersCopyRegister := by
  refine ⟨fun b1 b2 => by and_intros <;> rfl, fun s => ⟨?_, ?_, ?_, ?_⟩⟩
  · exact ⟨_, znUpdate_znFlags s s.a, rfl⟩
  · exact ⟨_, znUpdate_znFlags s s.x, rfl⟩
  · exact ⟨_, znUpdate_znFlags s s.a, rfl⟩
  · exact ⟨_, znUpdate_znFlags s s.y, rfl⟩

end Sys2Proof.Machine

/-! Increment by one (R140 to R142): the byte or register written back, wrapping at 256, with Z and N from it.
Settles O22 and O23. -/
namespace Sys2Proof.Machine

/-- Adding 1 to a byte wraps at 256. -/
theorem increment_toNat (v : Byte) : (v + 1).toNat = (v.toNat + 1) % 256 := BitVec.toNat_add v 1

/-- INX and INY commit their register plus 1, then set Z and N from it (R141, R142, C1). -/
theorem exec_of_incReg {i : Instr} {r : Reg} (s : State) (hi : (i.mnemonic, r) ∈ [(.INX, .X), (.INY, .Y)]) :
    exec i s = .next ((s.setReg r (s.reg r + 1)).setZN (s.reg r + 1)) := by
  rw [exec_eq_ruleOf]
  simp only [List.mem_cons, Prod.mk.injEq, List.not_mem_nil, or_false] at hi
  obtain ⟨hi, rfl⟩ | ⟨hi, rfl⟩ := hi <;> simp only [ruleOf, hi, incRegRule]

/-- Settles O22: every form has an effective address, and the rule writes the byte there and P alone. -/
theorem incrementMemoryWritesBack : Obligations.IncrementMemoryWritesBack := by
  refine ⟨fun b1 b2 => by and_intros <;> rfl, fun i s hi => ?_⟩
  obtain ⟨ea, hea⟩ := Operand.ea_isSome i.operand s (operand_ne_noMode i (.inl (by simp [hi])))
  exact ⟨ea, s.read ea + 1, _, _, hea, increment_toNat _, s.storedAt_write ea _, znUpdate_znFlags s _,
    exec_of_inc hi hea⟩

/-- Settles O23: the rule writes the register and P alone. -/
theorem incrementRegisterCommits : Obligations.IncrementRegisterCommits := by
  refine ⟨fun b1 b2 => ⟨rfl, rfl⟩, fun s => ⟨?_, ?_⟩⟩
  · exact ⟨s.x + 1, _, increment_toNat s.x, znUpdate_znFlags s _, exec_of_incReg (r := .X) s (by decide)⟩
  · exact ⟨s.y + 1, _, increment_toNat s.y, znUpdate_znFlags s _, exec_of_incReg (r := .Y) s (by decide)⟩

end Sys2Proof.Machine

/-! Bitwise operations and arithmetic into A (R110, R150 to R154): the byte each leaves in A, and the flags from it.
Settles O24 to O26. -/
namespace Sys2Proof.Machine

/-! ### AND, ORA, EOR -/

/-- AND, ORA and EOR put their byte `r` into A and set Z and N from it (R150 to R152). -/
theorem exec_of_bitwise {i : Instr} {s : State} {m r : Byte}
    (hi : i.mnemonic = .AND ∧ r = s.a &&& m ∨ i.mnemonic = .ORA ∧ r = s.a ||| m ∨ i.mnemonic = .EOR ∧ r = s.a ^^^ m)
    (hm : Operand.value i.operand s = some m) : exec i s = .next ((s.setReg .A r).setZN r) := by
  rw [exec_eq_ruleOf]
  obtain ⟨hi, rfl⟩ | ⟨hi, rfl⟩ | ⟨hi, rfl⟩ := hi <;>
    simp only [ruleOf, hi, bitwiseRule, withValue_of_value _ hm, State.reg_A]

/-- Settles O24: every form has an operand byte, and the rule writes A and P alone. -/
theorem bitwiseCombineIntoAccumulator : Obligations.BitwiseCombineIntoAccumulator := by
  refine ⟨fun b1 b2 => by and_intros <;> rfl, fun i s hi => ?_⟩
  have hoperand : i.operand ≠ .noMode :=
    operand_ne_noMode i (.inl (by simp only [List.mem_cons] at hi ⊢; tauto))
  obtain ⟨m, hm⟩ := Operand.value_isSome i.operand s hoperand
  obtain ⟨r, hr⟩ : ∃ r, i.mnemonic = .AND ∧ r = s.a &&& m ∨ i.mnemonic = .ORA ∧ r = s.a ||| m ∨
      i.mnemonic = .EOR ∧ r = s.a ^^^ m := by simpa [exists_or] using hi
  refine ⟨m, r, znFlags s.p r, hm, znUpdate_znFlags s r, exec_of_bitwise hr hm, fun h k => ?_, fun h k => ?_,
    fun h k => ?_⟩
  · obtain rfl : r = s.a &&& m := by simpa [h] using hr
    exact BitVec.getLsbD_and
  · obtain rfl : r = s.a ||| m := by simpa [h] using hr
    exact BitVec.getLsbD_or
  · obtain rfl : r = s.a ^^^ m := by simpa [h] using hr
    exact BitVec.getLsbD_xor

/-! ### The adder -/

/-- The adder's carry out as a number: the sum does not fit 8 bits (R110). -/
theorem addCarry_eq_decide (a m : Byte) (c : Bool) :
    addCarry a m c = decide (256 ≤ a.toNat + m.toNat + c.toNat) := by
  rw [← sum9_toNat]
  exact BitVec.msb_eq_decide (sum9 a m c)

/-- The adder leaves I, D, B and B2 as before (R29, R110). -/
theorem getFlag_addWithCarry_of_inert (s : State) (m : Byte) {f : Flag} (hf : f.inert = true) :
    getFlag (s.addWithCarry m).p f = getFlag s.p f := by
  rw [getFlag_addWithCarry]
  cases f with
  | I | D | B | B2 => rfl
  | C | Z | V | N => cases hf

/-- ADC adds the operand byte to A, SBC its negation (R153, R154). -/
theorem exec_of_add {i : Instr} {s : State} {m n : Byte}
    (hi : i.mnemonic = .ADC ∧ n = m ∨ i.mnemonic = .SBC ∧ n = negated m)
    (hm : Operand.value i.operand s = some m) : exec i s = .next (s.addWithCarry n) := by
  rw [exec_eq_ruleOf]
  obtain ⟨hi, rfl⟩ | ⟨hi, rfl⟩ := hi <;> simp only [ruleOf, hi, adcRule, sbcRule, withValue_of_value _ hm]

/-- Settles O25: every form has an operand byte, and the adder writes A and P alone. -/
theorem adcAddsWithCarry : Obligations.AdcAddsWithCarry := by
  refine ⟨fun b1 b2 => by and_intros <;> rfl, fun i s hi => ?_⟩
  obtain ⟨m, hm⟩ := Operand.value_isSome i.operand s (operand_ne_noMode i (.inl (by simp [hi])))
  refine ⟨m, addResult s.a m (s.flag .C), (s.addWithCarry m).p, hm, exec_of_add (.inl ⟨hi, rfl⟩) hm,
    addResult_toNat _ _ _, ?_, getFlag_addWithCarry s m .V, getFlag_addWithCarry s m .Z,
    getFlag_addWithCarry s m .N, fun f hf => getFlag_addWithCarry_of_inert s m (inert_of_mem hf)⟩
  exact (getFlag_addWithCarry s m .C).trans (addCarry_eq_decide _ _ _)

/-! ### The negated operand -/

/-- The 8-bit negation as a number (R154, log 8). -/
theorem negated_toNat (m : Byte) : (negated m).toNat = (256 - m.toNat) % 256 := by
  have hneg : negated m = -m := (BitVec.neg_eq_not_add m).symm
  rw [hneg, BitVec.toNat_neg]

/-- Without a carry in, adding the negation subtracts (R154). -/
theorem addResult_negated_false (a m : Byte) : addResult a (negated m) false = a - m := by
  apply BitVec.eq_of_toNat_eq
  rw [addResult_toNat, negated_toNat, BitVec.toNat_sub, Bool.toNat_false]
  omega

/-- Without a carry in, adding the negation carries out when nothing is borrowed, but never for 0, whose 8-bit
negation is 0 again (R154, log 8). -/
theorem addCarry_negated_false_iff (a m : Byte) :
    addCarry a (negated m) false = true ↔ m ≠ 0 ∧ m.toNat ≤ a.toNat := by
  have ha := a.isLt
  have hm := m.isLt
  have hzero : m = 0 ↔ m.toNat = 0 := BitVec.toNat_inj (y := 0#8).symm
  rw [addCarry_eq_decide, negated_toNat, decide_eq_true_iff, Bool.toNat_false, ne_eq, hzero]
  omega

/-- Settles O26: O25's adder on the negated operand byte; without a carry in it subtracts. -/
theorem sbcAddsNegatedOperand : Obligations.SbcAddsNegatedOperand := by
  refine ⟨fun b1 b2 => by and_intros <;> rfl, fun i s hi => ?_⟩
  obtain ⟨m, hm⟩ := Operand.value_isSome i.operand s (operand_ne_noMode i (.inl (by simp [hi])))
  have hcarry : getFlag (s.addWithCarry (negated m)).p .C = addCarry s.a (negated m) (getFlag s.p .C) :=
    getFlag_addWithCarry s (negated m) .C
  refine ⟨m, negated m, addResult s.a (negated m) (s.flag .C), (s.addWithCarry (negated m)).p, hm,
    exec_of_add (.inr ⟨hi, rfl⟩) hm, negated_toNat m, addResult_toNat _ _ _,
    hcarry.trans (addCarry_eq_decide _ _ _), getFlag_addWithCarry s _ .V, getFlag_addWithCarry s _ .Z,
    getFlag_addWithCarry s _ .N, fun f hf => getFlag_addWithCarry_of_inert s _ (inert_of_mem hf), fun hc => ?_⟩
  rw [hcarry, State.flag_eq, hc]
  exact ⟨addResult_negated_false s.a m, addCarry_negated_false_iff s.a m⟩

end Sys2Proof.Machine

/-! Shifts and rotates (R170 to R177): the bits of the shifted byte, the flags from it, and where it is written.
Settles O28 and O29. -/
namespace Sys2Proof.Machine

/-! ### The shifted byte, bit by bit -/

/-- The mnemonic whose rule runs each shift. -/
def Shift.mnemonic : Shift → Mnemonic
  | .asl => .ASL
  | .lsr => .LSR
  | .rol => .ROL
  | .ror => .ROR

/-- ASL and ROL move each bit one place up, bit 7 into the carry, and put 0 or the old carry in bit 0 (R170, R174). -/
theorem Shift.left_bits {k : Shift} (hk : k.mnemonic ∈ [.ASL, .ROL]) (v : Byte) (c : Bool) :
    k.carryOut v = v.getLsbD 7 ∧ (∀ j < 7, (k.result v c).getLsbD (j + 1) = v.getLsbD j) ∧
      (k.result v c).getLsbD 0 = (decide (k.mnemonic = .ROL) && c) := by
  cases k with
  | asl =>
    exact ⟨rfl, fun j hj => by simp [Shift.result, show j + 1 < 8 by omega, show j < 8 by omega],
      by simp [Shift.result, Shift.mnemonic]⟩
  | rol =>
    exact ⟨rfl, fun j hj => by simp [Shift.result, show j + 1 < 8 by omega, show j < 8 by omega],
      by simp [Shift.result, Shift.mnemonic]⟩
  | lsr | ror => exact absurd hk (by decide)

/-- LSR and ROR move each bit one place down, bit 0 into the carry, and put 0 or the old carry in bit 7 (R172, R176). -/
theorem Shift.right_bits {k : Shift} (hk : k.mnemonic ∈ [.LSR, .ROR]) (v : Byte) (c : Bool) :
    k.carryOut v = v.getLsbD 0 ∧ (∀ j < 7, (k.result v c).getLsbD j = v.getLsbD (j + 1)) ∧
      (k.result v c).getLsbD 7 = (decide (k.mnemonic = .ROR) && c) := by
  cases k with
  | lsr => exact ⟨rfl, fun j hj => by simp [Shift.result, Nat.add_comm], by simp [Shift.result, Shift.mnemonic]⟩
  | ror => exact ⟨rfl, fun j hj => by simp [Shift.result, hj, Nat.add_comm], by simp [Shift.result, Shift.mnemonic]⟩
  | asl | rol => exact absurd hk (by decide)

/-- What both forms of a shift `mn` of the byte `v` make of the status byte `p`: the byte `r` and the status byte
`p'`. -/
def ShiftsTo (mn : Mnemonic) (v p r p' : Byte) : Prop :=
  getFlag p' .Z = decide (r = 0) ∧ getFlag p' .N = r.getLsbD 7 ∧
  (∀ f, f ∉ [Flag.C, .Z, .N] → getFlag p' f = getFlag p f) ∧
  (mn ∈ [.ASL, .ROL] → getFlag p' .C = v.getLsbD 7 ∧
    (∀ j < 7, r.getLsbD (j + 1) = v.getLsbD j) ∧ r.getLsbD 0 = (decide (mn = .ROL) && getFlag p .C)) ∧
  (mn ∈ [.LSR, .ROR] → getFlag p' .C = v.getLsbD 0 ∧
    (∀ j < 7, r.getLsbD j = v.getLsbD (j + 1)) ∧ r.getLsbD 7 = (decide (mn = .ROR) && getFlag p .C))

/-- The shifts' shared flag update writes C, Z and N alone (R109). -/
theorem getFlag_setShiftFlags_other (s : State) (k : Shift) (v r : Byte) {f : Flag} (hf : f ∉ [Flag.C, .Z, .N]) :
    getFlag (s.setShiftFlags k v r).p f = getFlag s.p f := by
  rw [getFlag_setShiftFlags]
  cases f with
  | C | Z | N => simp at hf
  | I | D | B | B2 | V => rfl

/-- The model's shifted byte and flags are those of the shift's mnemonic. -/
theorem shiftsTo_setShiftFlags (s : State) (k : Shift) (v : Byte) :
    ShiftsTo k.mnemonic v s.p (k.result v (s.flag .C)) (s.setShiftFlags k v (k.result v (s.flag .C))).p := by
  have hcarry : getFlag (s.setShiftFlags k v (k.result v (s.flag .C))).p .C = k.carryOut v :=
    getFlag_setShiftFlags s k v _ .C
  refine ⟨getFlag_setShiftFlags s k v _ .Z, getFlag_setShiftFlags s k v _ .N,
    fun f hf => getFlag_setShiftFlags_other s k v _ hf, fun hk => ?_, fun hk => ?_⟩
  · exact hcarry.symm ▸ Shift.left_bits hk v (s.flag .C)
  · exact hcarry.symm ▸ Shift.right_bits hk v (s.flag .C)

/-! ### The two forms -/

/-- The instructions of this family run a shift. -/
theorem exists_shift {i : Instr} (hi : i.mnemonic ∈ [.ASL, .LSR, .ROL, .ROR]) :
    ∃ k : Shift, i.mnemonic = k.mnemonic := by
  simp only [List.mem_cons, List.not_mem_nil, or_false] at hi
  obtain hi | hi | hi | hi := hi
  exacts [⟨.asl, hi⟩, ⟨.lsr, hi⟩, ⟨.rol, hi⟩, ⟨.ror, hi⟩]

/-- The four shifts of A are the accumulator forms of this family (R72). -/
theorem accumulator_shift {i : Instr} (hi : i ∈ [Instr.aslA, .lsrA, .rolA, .rorA]) :
    i.mnemonic ∈ [.ASL, .LSR, .ROL, .ROR] ∧ i.descriptor.form = .accumulator := by
  simp only [List.mem_cons, List.not_mem_nil, or_false] at hi
  obtain rfl | rfl | rfl | rfl := hi <;> decide

/-- An accumulator form shifts A in place (R170, R172, R174, R176). -/
theorem exec_of_shiftAcc {i : Instr} {k : Shift} (s : State) (hi : i.mnemonic = k.mnemonic)
    (hf : i.descriptor.form = .accumulator) :
    exec i s = .next ((s.setReg .A (k.result s.a (s.flag .C))).setShiftFlags k s.a (k.result s.a (s.flag .C))) := by
  have hrule : exec i s = shiftAccRule k s := by
    rw [exec_eq_ruleOf]
    cases k <;> simp only [ruleOf, hi, Shift.mnemonic, if_pos hf]
  exact hrule

/-- A memory form shifts the byte at its effective address in place (R171, R173, R175, R177). -/
theorem exec_of_shiftMem {i : Instr} {k : Shift} {s : State} {ea : Addr} (hi : i.mnemonic = k.mnemonic)
    (hf : i.descriptor.form ≠ .accumulator) (hea : Operand.ea i.operand s = some ea) :
    exec i s = .next ((s.write ea (k.result (s.read ea) (s.flag .C))).setShiftFlags k (s.read ea)
      (k.result (s.read ea) (s.flag .C))) := by
  have hrule : exec i s = shiftMemRule k i.operand s := by
    rw [exec_eq_ruleOf]
    cases k <;> simp only [ruleOf, hi, Shift.mnemonic, if_neg hf]
  exact hrule.trans (withAddress_of_ea _ hea)

/-! ### The statements -/

/-- Settles O28: the accumulator rule writes A and P alone. -/
theorem accumulatorShiftsMoveOneBit : Obligations.AccumulatorShiftsMoveOneBit := by
  refine ⟨fun b1 b2 => by and_intros <;> rfl, fun i s hi => ?_⟩
  obtain ⟨hmn, hf⟩ := accumulator_shift hi
  obtain ⟨k, hk⟩ := exists_shift hmn
  exact ⟨k.result s.a (s.flag .C), _, exec_of_shiftAcc s hk hf, hk ▸ shiftsTo_setShiftFlags s k s.a⟩

/-- Settles O29: every memory form has an effective address, and the rule writes the byte there and P alone. -/
theorem memoryShiftsMoveOneBit : Obligations.MemoryShiftsMoveOneBit := by
  refine ⟨fun b1 b2 => by and_intros <;> rfl, fun i s hmn hf => ?_⟩
  obtain ⟨k, hk⟩ := exists_shift hmn
  obtain ⟨ea, hea⟩ := Operand.ea_isSome i.operand s (operand_ne_noMode i (.inr ⟨hmn, hf⟩))
  exact ⟨ea, s.read ea, k.result (s.read ea) (s.flag .C), _, _, hea, rfl, exec_of_shiftMem hk hf hea,
    s.storedAt_write ea _, hk ▸ shiftsTo_setShiftFlags s k (s.read ea)⟩

end Sys2Proof.Machine

/-! BIT (R190): its flags from the operand byte and A. Settles O30. -/
namespace Sys2Proof.Machine

/-- Two bytes have no bit in common exactly when their AND is 0x00. -/
theorem and_eq_zero_iff_disjoint (m a : Byte) :
    m &&& a = 0 ↔ ∀ k < 8, ¬ (m.getLsbD k = true ∧ a.getLsbD k = true) := by
  simp [BitVec.eq_of_getLsbD_eq_iff]

/-- BIT's flag update writes Z, V and N alone (R190). -/
theorem getFlag_setBitTest_other (s : State) (m : Byte) {f : Flag} (hf : f ∉ [Flag.Z, .V, .N]) :
    getFlag (s.setBitTest m).p f = getFlag s.p f := by
  rw [getFlag_setBitTest]
  cases f with
  | Z | V | N => simp at hf
  | C | I | D | B | B2 => rfl

/-- BIT sets its flags from the operand byte (R190). -/
theorem exec_of_bit {i : Instr} {s : State} {m : Byte} (hi : i.mnemonic = .BIT)
    (hm : Operand.value i.operand s = some m) : exec i s = .next (s.setBitTest m) := by
  rw [exec_eq_ruleOf]
  simp only [ruleOf, hi, bitRule, withValue_of_value _ hm]

/-- Settles O30: both forms have an operand byte, and the rule writes P alone. -/
theorem bitTestsWithoutWriting : Obligations.BitTestsWithoutWriting := by
  refine ⟨fun b1 b2 => ⟨rfl, rfl⟩, fun i s hi => ?_⟩
  obtain ⟨m, hm⟩ := Operand.value_isSome i.operand s (operand_ne_noMode i (.inl (by simp [hi])))
  have hzero : getFlag (s.setBitTest m).p .Z = true ↔ m &&& s.a = 0 := by
    rw [getFlag_setBitTest, beq_iff_eq]
  exact ⟨m, (s.setBitTest m).p, hm, exec_of_bit hi hm, hzero.trans (and_eq_zero_iff_disjoint m s.a),
    getFlag_setBitTest s m .V, getFlag_setBitTest s m .N, fun f hf => getFlag_setBitTest_other s m hf⟩

end Sys2Proof.Machine

/-! The conditional branches (R195 to R203): the rule on the flag it tests, and the step on a branch's offset byte.
Settles O31 and O32. -/
namespace Sys2Proof.Machine

/-- `Branch` on a flag that must be set moves `pc` past the offset byte by the offset, or does nothing (R195). -/
theorem branchRule_of_set (f : Flag) (off : Int) (s : State) :
    branchRule (s.flag f) off s =
      .next (if getFlag s.p f = true then { s with pc := s.pc + 1 + BitVec.ofInt 16 off } else s) := rfl

/-- `Branch` on a flag that must be clear moves `pc` past the offset byte by the offset, or does nothing (R195). -/
theorem branchRule_of_clear (f : Flag) (off : Int) (s : State) :
    branchRule (!s.flag f) off s =
      .next (if getFlag s.p f = false then { s with pc := s.pc + 1 + BitVec.ofInt 16 off } else s) :=
  congrArg Host.Outcome.next (if_congr (Iff.of_eq (Bool.not_eq_true' _)) rfl rfl)

/-- Settles O31: each mnemonic runs `Branch` on its own flag, asked to be set or to be clear. -/
theorem branchRulesTestOneFlag : Obligations.BranchRulesTestOneFlag := by
  refine ⟨fun b1 b2 => by and_intros <;> rfl, fun off s => ⟨?bcc, ?bcs, ?beq, ?bne, ?bmi, ?bpl, ?bvc, ?bvs⟩⟩
  case bcc => exact branchRule_of_clear .C off s
  case bcs => exact branchRule_of_set .C off s
  case beq => exact branchRule_of_set .Z off s
  case bne => exact branchRule_of_clear .Z off s
  case bmi => exact branchRule_of_set .N off s
  case bpl => exact branchRule_of_clear .N off s
  case bvc => exact branchRule_of_clear .V off s
  case bvs => exact branchRule_of_set .V off s

/-- The offset byte 0xFF alone reads as the offset -1 (R73). -/
theorem offsetOfByte_eq_neg_one_iff (b : Byte) : offsetOfByte b = -1 ↔ b = 0xFF :=
  BitVec.toInt_inj (x := b) (y := 0xFF)

/-- The read-back offset as a 16-bit word is the byte sign-extended (R195). -/
theorem ofInt_offsetOfByte (b : Byte) : BitVec.ofInt 16 (offsetOfByte b) = b.signExtend 16 := rfl

/-- Settles O32: the step of a branch, with the offset -1 read as the byte 0xFF. -/
theorem branchStepGoesToTarget : Obligations.BranchStepGoesToTarget := by
  intro s op f v h hf hop
  rw [step_of_branch h hf hop]
  simp only [offsetOfByte_eq_neg_one_iff, ofInt_offsetOfByte, ite_and, ite_not]

end Sys2Proof.Machine

/-! NOP (R210): its rule, its step and its opcode byte. Settles O33. -/
namespace Sys2Proof.Machine

/-- NOP's rule leaves the state as it found it (R210). -/
theorem exec_nop (s : State) : exec .nop s = .next s := rfl

/-- The opcode bytes that decode to NOP are 0xEA alone (R210). -/
theorem mnemonic_eq_nop_iff {op b1 b2 : Byte} {i : Instr} (h : decodeBytes op b1 b2 = some i) :
    i.mnemonic = .NOP ↔ op = 0xEA := by
  rw [← (decodeBytes_some h).1]
  cases i <;> simp [Instr.mnemonic, Instr.descriptor]

/-- A step from Fetching on NOP: the rule leaves `pc` where the fetch put it, and the advance adds its length less
one, 0 (R104, R210). -/
theorem step_of_nop {s : State} (hf : s.es = .fetching) (hop : s.read s.pc = 0xEA) :
    step s = .next { s with pc := s.pc + 1, inFlight := none } := by
  have hi : s.instrAt s.pc = some .nop := by rw [State.instrAt, hop]; rfl
  have hu := exec_nop (s.dispatched .nop)
  have hpc : (s.dispatched .nop).pc = s.pc + 1 := rfl
  have hlen : Instr.nop.len = 1 := rfl
  rw [step_of_instr hf hi, hu, finishStep, finish_after_rule hu rfl, if_pos hpc, hlen, Nat.sub_self,
    BitVec.add_zero, ← hf]
  rfl

/-- Settles O33: the rule, the step and the opcode byte of NOP. -/
theorem nopOnlyAdvancesPc : Obligations.NopOnlyAdvancesPc :=
  ⟨exec_nop, fun _ => step_of_nop, fun _ _ _ _ => mnemonic_eq_nop_iff⟩

end Sys2Proof.Machine

/-! Errors, reset, load and the host's writes (R220 to R227, R250 to R256). Settles O2, O3, O15, O48, O49, O51 and
O52. -/
namespace Sys2Proof.Machine

/-! ### Errors -/

/-- Settles O15, by the three ways a step answers a next state: an absent byte faults in `step` itself, and of the
instructions only an undispatched one ends in Faulted. -/
theorem faultedStepChangesNothingElse : Obligations.FaultedStepChangesNothingElse := by
  intro s t hf h ht
  obtain ⟨hn, -⟩ | ⟨-, hi, rfl⟩ | ⟨-, i, u, hi, hu, rfl⟩ := step_cases h
  · exact absurd hf hn
  · rw [if_pos (State.instrAt_eq_none_iff.mp hi)]
  · have hpresent : s.read s.pc ∉ absentBytes := by
      rw [← State.instrAt_eq_none_iff, hi]
      exact Option.some_ne_none i
    obtain ⟨-, hes⟩ | ⟨hdisp, -⟩ | ⟨-, hes⟩ := finish_engineState hu
    · simp [hes] at ht
    · have hstep := undispatchedOpcodeFaultsPrecisely s hf ((dispatched_eq_false_iff hi).mp hdisp)
      rw [if_neg hpresent]
      exact Host.Outcome.next.inj (h.symm.trans hstep)
    · simp [hes] at ht

/-! ### Words and byte sequences in memory -/

/-- A word reads back as stored, at 0xFFFF too (R43, R44, D9). -/
@[simp] theorem State.read16_write16 (s : State) (addr v : Addr) : (s.write16 addr v).read16 addr = v := by
  rw [State.read16, State.read_write16, State.read_write16, if_neg (addr_ne_succ addr).symm, if_pos rfl, if_pos rfl,
    word16_hiByte_loByte]

/-- What each byte reads as after a sequence of at most 65536 bytes is stored: the byte of the sequence at its
distance from the first address, and past the sequence as before. By induction along the sequence, which is too
short to come round to its first address again. -/
theorem State.read_writeBytes {bytes : List Byte} (hlen : bytes.length ≤ 65536) (s : State) (addr b : Addr) :
    (s.writeBytes addr bytes).read b = bytes.getD (b - addr).toNat (s.read b) := by
  induction bytes generalizing s addr with
  | nil => rfl
  | cons v vs ih =>
    rw [List.length_cons] at hlen
    rw [State.writeBytes, ih (by omega), State.read_write]
    by_cases hb : b = addr
    · have hpast : vs.length ≤ (b - (addr + 1)).toNat := by
        have hlast : (b - (addr + 1)).toNat = 65535 := by bv_omega
        omega
      rw [List.getD_eq_default _ _ hpast, if_pos hb, hb, BitVec.sub_self]
      rfl
    · have hnext : (b - addr).toNat = (b - (addr + 1)).toNat + 1 := by bv_omega
      rw [if_neg hb, hnext, List.getD_cons_succ]

/-! ### load -/

/-- `load` of a program that fits (R252). -/
theorem hostLoad_of_le {bytes : List Byte} (h : bytes.length ≤ 0x8000) (s : State) :
    hostLoad bytes s =
      (.ok, (s.writeBytes Config.loadOrigin bytes).write16 Config.resetVector Config.loadOrigin) :=
  if_neg (Nat.not_lt.mpr h)

/-- `load` of a program that is too long (R224, R252). -/
theorem hostLoad_of_gt {bytes : List Byte} (h : 0x8000 < bytes.length) (s : State) :
    hostLoad bytes s = (.programTooLarge bytes.length, s) := if_pos h

/-- `load` writes memory alone, whether it takes the program or refuses it (R224, R252). -/
theorem hostLoad_state_eq (bytes : List Byte) (s : State) :
    (hostLoad bytes s).2 = { s with mem := (hostLoad bytes s).2.mem } := by
  by_cases h : bytes.length ≤ 0x8000
  · rw [hostLoad_of_le h]
    conv_lhs => rw [State.writeBytes_eq]
    rfl
  · rw [hostLoad_of_gt (Nat.lt_of_not_le h)]

/-- What each byte reads as after `load` of a program that fits: the vector over the program, the program over what
was there (R252, D17). -/
theorem read_hostLoad {bytes : List Byte} (h : bytes.length ≤ 0x8000) (s : State) (b : Addr) :
    (hostLoad bytes s).2.read b =
      if b = 0xFFFC then 0x00
      else if b = 0xFFFD then 0x80
      else bytes.getD (b - 0x8000).toNat (s.read b) := by
  rw [hostLoad_of_le h, State.read_write16, State.read_writeBytes (by omega)]
  rfl

/-- A program that starts at 0x8000 and ends by the top of memory has no byte below 0x8000, and above it byte `i`
at 0x8000 + i. -/
theorem getD_sub_origin {bytes : List Byte} (h : bytes.length ≤ 0x8000) (b : Addr) (d : Byte) :
    bytes.getD (b - 0x8000).toNat d =
      if 0x8000 ≤ b.toNat ∧ b.toNat - 0x8000 < bytes.length then bytes.getD (b.toNat - 0x8000) 0 else d := by
  by_cases hb : 0x8000 ≤ b.toNat
  · have hsub : (b - 0x8000).toNat = b.toNat - 0x8000 := by bv_omega
    rw [hsub]
    by_cases hi : b.toNat - 0x8000 < bytes.length
    · rw [if_pos ⟨hb, hi⟩, List.getD_eq_getElem _ _ hi, List.getD_eq_getElem _ _ hi]
    · rw [if_neg fun hin => hi hin.2, List.getD_eq_default _ _ (Nat.le_of_not_lt hi)]
  · have hpast : bytes.length ≤ (b - 0x8000).toNat := by
      have hsub : 0x8000 ≤ (b - 0x8000).toNat := by bv_omega
      omega
    rw [if_neg fun hin => hb hin.1, List.getD_eq_default _ _ hpast]

/-- Settles O48: the program is stored from 0x8000, and the vector after it. -/
theorem loadCopiesProgramAndVector : Obligations.LoadCopiesProgramAndVector := by
  refine fun bytes s => ⟨fun hle => ⟨(hostLoad bytes s).2.mem, ?_, fun b => ?_⟩, fun hgt => hostLoad_of_gt hgt s⟩
  · rw [← hostLoad_state_eq, hostLoad_of_le hle]
  · rw [← getD_sub_origin hle]
    exact read_hostLoad hle s b

/-- Settles O49: `reset` reads back the vector that `load` stored last. -/
theorem loadAndRunStartsAtOrigin : Obligations.LoadAndRunStartsAtOrigin := by
  refine fun params fuel bytes s => ⟨fun hle => ?_, fun hgt => ?_⟩
  · rw [hostLoadAndRun, hostLoad_of_le hle]
    exact ⟨rfl, State.read16_write16 _ Config.resetVector Config.loadOrigin⟩
  · rw [hostLoadAndRun, hostLoad_of_gt hgt]

/-! ### Construction and reset -/

/-- Settles O2: each field as `reset` writes it, and pc as the little-endian word at the vector. -/
theorem resetReinitialisesFromVector : Obligations.ResetReinitialisesFromVector :=
  fun _ s => ⟨rfl, rfl, rfl, rfl, rfl, rfl, rfl, s.read16_toNat Config.resetVector, rfl⟩

/-- Every byte of the constructed block's memory reads 0x00 (R36). -/
@[simp] theorem State.construct_read (params : Params) (addr : Addr) : (State.construct params).read addr = 0x00 := rfl

/-- The vector in the zeroed memory of construction is 0x0000, the pc of construction (R36, R251, D8). -/
theorem State.construct_read16_resetVector (params : Params) :
    (State.construct params).read16 Config.resetVector = Config.pcInit := by
  rw [State.read16, State.construct_read, State.construct_read]
  rfl

/-- `reset` of the constructed block changes nothing: it writes each field as construction does (R250, R251). -/
theorem hostReset_construct (params : Params) : hostReset params (State.construct params) = State.construct params := by
  rw [hostReset, State.construct_read16_resetVector]
  rfl

/-- Settles O3. -/
theorem resetStateIsResetOfConstructed : Obligations.ResetStateIsResetOfConstructed :=
  ⟨(hostReset_construct Config.defaultParams).symm, hostReset_construct⟩

/-- Settles O51: the byte at pc = 0x0000 of zeroed memory is BRK's, so the first step halts and `run` returns. -/
theorem runOnConstructedBlockHaltsAtOnce : Obligations.RunOnConstructedBlockHaltsAtOnce := by
  intro params fuel
  have hes : (State.construct params).es = .fetching := rfl
  have hstep := brkHaltsAfterItsByte.2 (State.construct params) hes (State.construct_read params _)
  exact hostRun_succ (s := State.construct params) (by simp [hes]) hstep fuel

/-! ### The host's writes -/

/-- Settles O52, one action at a time: each is an update of the one part it names, and `load` of memory. -/
theorem hostWritesLeaveEngineState : Obligations.HostWritesLeaveEngineState := by
  refine fun s r q v w b bytes => ⟨s.reg_setReg r q v, rfl, rfl, rfl, s.read_write w b v, fun act hact => ?_⟩
  simp only [List.mem_cons, List.not_mem_nil, or_false] at hact
  obtain rfl | rfl | rfl | rfl | rfl | rfl := hact
  · exact ⟨s.setReg_es r v, s.setReg_fault r v⟩
  · exact ⟨rfl, rfl⟩
  · exact ⟨rfl, rfl⟩
  · exact ⟨rfl, rfl⟩
  · exact ⟨s.write_es w v, s.write_fault w v⟩
  · rw [hostAct, hostLoad_state_eq]
    exact ⟨rfl, rfl⟩

end Sys2Proof.Machine
